-- ==== Sys2Proof/Word.lean ====
section
/-!
DEFINITION. The word types of the mixer. All values are unsigned bit vectors, bit 0 the least significant
(00_scope R10); addition, multiplication and XOR on them are the modular and bitwise operations of R11.
-/

namespace Sys2Proof

/-- One byte of the message space (20_memory R40). -/
abbrev Byte := BitVec 8

/-- A `u32`: the length, the seed, a word of the 32-bit path, the digest. -/
abbrev Word32 := BitVec 32

/-- A `u64`: the accumulator, a word of the 64-bit path, the payload of a token. -/
abbrev Word64 := BitVec 64

/-- The width of `NW` and `IDX` (10_state R22, R23). -/
abbrev Count := BitVec 30

/-- A command token `cmd[67:0]` (30_encoding R60). -/
abbrev Token := BitVec 68

end Sys2Proof
end

