-- ==== Sys2Proof/Config.lean ====
section
/-!
DEFINITION. What an instance of the mixer is built with: the width, the profile, the byte order, the
index-selection tables and the mixing constants (00_scope R5 to R9, 10_state R30 to R32).

The spec makes all of it an ARGUMENT of the step function (10_state R38). The host's interface fixes a
step without such an argument, so the argument is carried in one field of State that nothing writes
(assumption 1), and a statement about every state is a statement about every configuration.

The values of the constants are in no source (93 U5). Those of the instance that `State.reset` describes
are opaque constants without a body (assumption 4): nothing can be proved about their values. Where the
spec states that a constant is odd, only its upper bits are open and bit 0 is 1.
-/

namespace Sys2Proof

/-- WIDTH, the word-width path (00_scope R5). -/
inductive Width where
  | w64
  | w32
  deriving DecidableEq, Repr

/-- PROFILE, the mixing strength (00_scope R6). -/
inductive Profile where
  | full
  | opt
  deriving DecidableEq, Repr

/-- BYTE_ORDER, how the bytes of a buffer form a word (00_scope R9, 20_memory R43). -/
inductive ByteOrder where
  | le
  | be
  deriving DecidableEq, Repr

/-- The mixing constants (10_state R30 to R32), each with the width the spec declares. -/
structure Constants where
  /-- `K5[0] .. K5[4]`, round constants of W64/FULL (R30). -/
  k5 : Vector Word64 5
  /-- `M64F_B[0] .. M64F_B[3]`, round multipliers of the block positions, odd (R30). -/
  m64fB : Vector Word32 4
  /-- `M64F_T[1] .. M64F_T[3]`, round multipliers of the tail countdown values, odd (R30);
  entry `n` of the vector is `M64F_T[n + 1]`. -/
  m64fT : Vector Word32 3
  /-- `F1`, finalizer multiplier of W64/FULL, odd (R30). -/
  f1 : Word64
  /-- `F2`, finalizer multiplier of W64/FULL, odd (R30). -/
  f2 : Word64
  /-- `K3[0] .. K3[2]`, round constants of W64/OPT (R31). -/
  k3 : Vector Word64 3
  /-- `M64O`, round multiplier of W64/OPT (R31). -/
  m64o : Word64
  /-- `G1`, finalizer constant of W64/OPT (R31). -/
  g1 : Word64
  /-- `G2`, finalizer constant of W64/OPT (R31). -/
  g2 : Word64
  /-- `C1`, first word multiplier of W32/FULL, odd (R32). -/
  c1 : Word32
  /-- `C2`, second word multiplier of W32/FULL (R32). -/
  c2 : Word32
  /-- `N32`, addend of W32/FULL (R32). -/
  n32 : Word32
  /-- `C1O`, first word multiplier of W32/OPT, odd (R32). -/
  c1o : Word32
  /-- `C2O`, second word multiplier of W32/OPT (R32). -/
  c2o : Word32
  /-- `N32O`, addend of W32/OPT (R32). -/
  n32o : Word32
  /-- `P1`, finalizer multiplier of the 32-bit path, odd (R32). -/
  p1 : Word32
  /-- `P2`, finalizer multiplier of the 32-bit path, odd (R32). -/
  p2 : Word32
  deriving DecidableEq, Repr

/-- The index-selection tables of W64/FULL; every entry lies in `0 .. 4` (41_absorb R94, R95). -/
structure Selection where
  /-- `KA_B`: first round constant of block position `j`. -/
  kaB : Vector (Fin 5) 4
  /-- `KB_B`: second round constant of block position `j`. -/
  kbB : Vector (Fin 5) 4
  /-- `KA_T`: first round constant of countdown `r`; entry `n` is `KA_T[n + 1]`. -/
  kaT : Vector (Fin 5) 3
  /-- `KB_T`: second round constant of countdown `r`; entry `n` is `KB_T[n + 1]`. -/
  kbT : Vector (Fin 5) 3
  deriving DecidableEq, Repr

/-- The configuration of an instance, fixed when it is built (00_scope R5 to R9). -/
structure Config where
  width : Width
  profile : Profile
  byteOrder : ByteOrder
  sel : Selection
  consts : Constants
  deriving DecidableEq, Repr

/-- The spec's own selection tables (41_absorb R94, R95; the spec's decisions D11 and D12). -/
def Selection.standard : Selection where
  kaB := #v[0, 1, 2, 3]
  kbB := #v[1, 2, 3, 4]
  kaT := #v[1, 2, 3]
  kbT := #v[2, 3, 4]

/-- `K5` of the instance at reset: open (10_state R30, assumption 4). -/
opaque Config.freeK5 : Fin 5 → Word64
/-- Bits `[31:1]` of `M64F_B[j]` of the instance at reset: open (R30, assumption 4). -/
opaque Config.freeM64fB : Fin 4 → BitVec 31
/-- Bits `[31:1]` of `M64F_T[n + 1]` of the instance at reset: open (R30, assumption 4). -/
opaque Config.freeM64fT : Fin 3 → BitVec 31
/-- Bits `[63:1]` of `F1` (n = 0) and `F2` (n = 1) of the instance at reset: open (R30, assumption 4). -/
opaque Config.freeF : Fin 2 → BitVec 63
/-- `K3` of the instance at reset: open (10_state R31, assumption 4). -/
opaque Config.freeK3 : Fin 3 → Word64
/-- `M64O` of the instance at reset: open, no parity stated (R31, assumption 4). -/
opaque Config.freeM64o : Word64
/-- `G1` (n = 0) and `G2` (n = 1) of the instance at reset: open, no parity stated (R31, assumption 4). -/
opaque Config.freeG : Fin 2 → Word64
/-- Bits `[31:1]` of `C1` of the instance at reset: open (10_state R32, assumption 4). -/
opaque Config.freeC1 : BitVec 31
/-- `C2` of the instance at reset: open, no parity stated (R32, assumption 4). -/
opaque Config.freeC2 : Word32
/-- `N32` of the instance at reset: open (R32, assumption 4). -/
opaque Config.freeN32 : Word32
/-- Bits `[31:1]` of `C1O` of the instance at reset: open (R32, assumption 4). -/
opaque Config.freeC1o : BitVec 31
/-- `C2O` of the instance at reset: open, no parity stated (R32, assumption 4). -/
opaque Config.freeC2o : Word32
/-- `N32O` of the instance at reset: open (R32, assumption 4). -/
opaque Config.freeN32o : Word32
/-- Bits `[31:1]` of `P1` (n = 0) and `P2` (n = 1) of the instance at reset: open (R32, assumption 4). -/
opaque Config.freeP : Fin 2 → BitVec 31

/-- The odd word whose bits above bit 0 are `x`. -/
def oddWord {n : Nat} (x : BitVec n) : BitVec (n + 1) := x ++ 1#1

/-- The constants of the instance that `State.reset` describes: every value the spec leaves open is open
here, and every parity the spec states holds (10_state R30 to R32, assumption 4). -/
def Config.freeConstants : Constants where
  k5 := #v[freeK5 0, freeK5 1, freeK5 2, freeK5 3, freeK5 4]
  m64fB := #v[oddWord (freeM64fB 0), oddWord (freeM64fB 1), oddWord (freeM64fB 2), oddWord (freeM64fB 3)]
  m64fT := #v[oddWord (freeM64fT 0), oddWord (freeM64fT 1), oddWord (freeM64fT 2)]
  f1 := oddWord (freeF 0)
  f2 := oddWord (freeF 1)
  k3 := #v[freeK3 0, freeK3 1, freeK3 2]
  m64o := freeM64o
  g1 := freeG 0
  g2 := freeG 1
  c1 := oddWord freeC1
  c2 := freeC2
  n32 := freeN32
  c1o := oddWord freeC1o
  c2o := freeC2o
  n32o := freeN32o
  p1 := oddWord (freeP 0)
  p2 := oddWord (freeP 1)

/-- The instance that `State.reset` describes. The spec names no default variant (00_scope R5, R6):
DESIGN CHOICE (assumption 3), the variant it lists first, W64/FULL. Byte order and selection tables are
the spec's own values (20_memory R43, 41_absorb R94, R95). -/
def Config.atReset : Config where
  width := .w64
  profile := .full
  byteOrder := .le
  sel := Selection.standard
  consts := Config.freeConstants

end Sys2Proof
end

