-- ==== Sys2Proof/Syntax.lean ====
section
/-!
DEFINITION. The instructions: one constructor per row of spec/opcode_table.json, sixteen in all
(30_encoding R64, R72). A constructor's arguments are the fields of the row's format (R62); where a
payload is ignored it is still carried, so that a token and its instruction determine each other (R61).
-/

namespace Sys2Proof

inductive Instr where
  /-- `START len, seed`: format S, `op = 0x1` (40_start R80). -/
  | start (len seed : Word32)
  /-- `ABSORB word`: format A, `op = 0x2`; which payload bits are the word depends on the width, which
  decoding does not read (30_encoding R67, 41_absorb R90). -/
  | absorb (payload : Word64)
  /-- `FINISH`: format F, `op = 0x3`; the payload is ignored (42_finish R110). -/
  | finish (payload : Word64)
  /-- `op = 0x0`: reserved (30_encoding R65). -/
  | reserved0 (payload : Word64)
  /-- `op = 0x4`: reserved (R65). -/
  | reserved4 (payload : Word64)
  /-- `op = 0x5`: reserved (R65). -/
  | reserved5 (payload : Word64)
  /-- `op = 0x6`: reserved (R65). -/
  | reserved6 (payload : Word64)
  /-- `op = 0x7`: reserved (R65). -/
  | reserved7 (payload : Word64)
  /-- `op = 0x8`: reserved (R65). -/
  | reserved8 (payload : Word64)
  /-- `op = 0x9`: reserved (R65). -/
  | reserved9 (payload : Word64)
  /-- `op = 0xA`: reserved (R65). -/
  | reservedA (payload : Word64)
  /-- `op = 0xB`: reserved (R65). -/
  | reservedB (payload : Word64)
  /-- `op = 0xC`: reserved (R65). -/
  | reservedC (payload : Word64)
  /-- `op = 0xD`: reserved (R65). -/
  | reservedD (payload : Word64)
  /-- `op = 0xE`: reserved (R65). -/
  | reservedE (payload : Word64)
  /-- `op = 0xF`: reserved (R65). -/
  | reservedF (payload : Word64)
  deriving DecidableEq, Repr

end Sys2Proof
end

