-- ==== Sys2Proof/WellFormed.lean ====
section
/-!
DEFINITION. Which instructions and which configurations are well formed.

Every one of the `2^68` tokens is legal to present and has one meaning (30_encoding R61, R66), and the
fields of `Instr` have exactly the widths of the token's fields, so there is no ill-formed instruction.
Two narrower checks exist: what the assembler emits for a statement (30_encoding R69), and the parity the
spec states for some constants (10_state R30 to R32).
-/

namespace Sys2Proof

/-- Well-formed as an operand-bearing command of the hardware: every instruction is (30_encoding R61). -/
def Instr.wellFormed : Instr → Bool
  | .start _ _ => true
  | .absorb _ => true
  | .finish _ => true
  | .reserved0 _ => true
  | .reserved4 _ => true
  | .reserved5 _ => true
  | .reserved6 _ => true
  | .reserved7 _ => true
  | .reserved8 _ => true
  | .reserved9 _ => true
  | .reservedA _ => true
  | .reservedB _ => true
  | .reservedC _ => true
  | .reservedD _ => true
  | .reservedE _ => true
  | .reservedF _ => true

/-- `START`, `ABSORB` or `FINISH`: one of the three commands and not a reserved opcode (30_encoding R64). -/
def Instr.isCommand : Instr → Bool
  | .start _ _ => true
  | .absorb _ => true
  | .finish _ => true
  | .reserved0 _ => false
  | .reserved4 _ => false
  | .reserved5 _ => false
  | .reserved6 _ => false
  | .reserved7 _ => false
  | .reserved8 _ => false
  | .reserved9 _ => false
  | .reservedA _ => false
  | .reservedB _ => false
  | .reservedC _ => false
  | .reservedD _ => false
  | .reservedE _ => false
  | .reservedF _ => false

/-- What the assembler emits without `.token`: a command whose ignored bits are zero (30_encoding R69). -/
def Instr.canonical (w : Width) : Instr → Bool
  | .start _ _ => true
  | .absorb payload => w == .w64 || payload >>> 32 == 0
  | .finish payload => payload == 0
  | i => i.isCommand

/-- The parity constraints the source states (10_state R30 to R32): `M64F_*`, `F1`, `F2`, `C1`, `C1O`,
`P1`, `P2` are odd, and nothing else is constrained. -/
def Constants.legal (k : Constants) : Bool :=
  k.m64fB.toList.all (fun m => m.getLsbD 0) && k.m64fT.toList.all (fun m => m.getLsbD 0) &&
    k.f1.getLsbD 0 && k.f2.getLsbD 0 && k.c1.getLsbD 0 && k.c1o.getLsbD 0 &&
    k.p1.getLsbD 0 && k.p2.getLsbD 0

/-- A configuration a chip of this hardware can be built with. -/
def Config.legal (c : Config) : Bool := c.consts.legal

end Sys2Proof
end

