-- ==== Sys2Proof/Decode.lean ====
section
/-!
DEFINITION. The decoder and the encoder of a command token (30_encoding R60 to R67). Decoding is total:
`op = cmd[67:64]` alone selects the instruction (R60) and no token is refused (R61). It reads neither the
width nor the profile (R67).
-/

namespace Sys2Proof

/-- `op = cmd[67:64]` (30_encoding R60). -/
def opField (c : Token) : BitVec 4 := c.extractLsb' 64 4

/-- `payload = cmd[63:0]` (R60). -/
def payloadField (c : Token) : Word64 := c.extractLsb' 0 64

/-- `len = cmd[63:32]`, of format S (R62). -/
def lenField (c : Token) : Word32 := c.extractLsb' 32 32

/-- `seed = cmd[31:0]`, of format S (R62). -/
def seedField (c : Token) : Word32 := c.extractLsb' 0 32

/-- The instruction of a token (30_encoding R61, R62, R64). -/
def decode (c : Token) : Instr :=
  match (opField c).toNat with
  | 0x0 => .reserved0 (payloadField c)
  | 0x1 => .start (lenField c) (seedField c)
  | 0x2 => .absorb (payloadField c)
  | 0x3 => .finish (payloadField c)
  | 0x4 => .reserved4 (payloadField c)
  | 0x5 => .reserved5 (payloadField c)
  | 0x6 => .reserved6 (payloadField c)
  | 0x7 => .reserved7 (payloadField c)
  | 0x8 => .reserved8 (payloadField c)
  | 0x9 => .reserved9 (payloadField c)
  | 0xA => .reservedA (payloadField c)
  | 0xB => .reservedB (payloadField c)
  | 0xC => .reservedC (payloadField c)
  | 0xD => .reservedD (payloadField c)
  | 0xE => .reservedE (payloadField c)
  | _ => .reservedF (payloadField c)

/-- The opcode of an instruction (30_encoding R64). -/
def Instr.opcode : Instr → BitVec 4
  | .reserved0 _ => 0x0
  | .start _ _ => 0x1
  | .absorb _ => 0x2
  | .finish _ => 0x3
  | .reserved4 _ => 0x4
  | .reserved5 _ => 0x5
  | .reserved6 _ => 0x6
  | .reserved7 _ => 0x7
  | .reserved8 _ => 0x8
  | .reserved9 _ => 0x9
  | .reservedA _ => 0xA
  | .reservedB _ => 0xB
  | .reservedC _ => 0xC
  | .reservedD _ => 0xD
  | .reservedE _ => 0xE
  | .reservedF _ => 0xF

/-- The payload of an instruction: `len` above `seed` for `START`, the carried payload for the others
(30_encoding R62). -/
def Instr.payload : Instr → Word64
  | .start len seed => len ++ seed
  | .absorb p => p
  | .finish p => p
  | .reserved0 p => p
  | .reserved4 p => p
  | .reserved5 p => p
  | .reserved6 p => p
  | .reserved7 p => p
  | .reserved8 p => p
  | .reserved9 p => p
  | .reservedA p => p
  | .reservedB p => p
  | .reservedC p => p
  | .reservedD p => p
  | .reservedE p => p
  | .reservedF p => p

/-- The token of an instruction: `op` above `payload` (30_encoding R60). -/
def encode (i : Instr) : Token := i.opcode ++ i.payload

/-- The token whose bits are `w`, when they fit a token; the token is the one word of an instruction, its
bit 0 the least significant bit (00_scope R10, 30_encoding R60). -/
def tokenOfNat (w : Nat) : Option Token :=
  if w < 2 ^ 68 then some (BitVec.ofNat 68 w) else none

/-- The host's numbering of a table row's bits, through the decoder. Bits at `nbits` and above are zero;
a number that does not fit a 68-bit token is refused. -/
def decodeTableWord (nbits w : Nat) : Option Instr :=
  (tokenOfNat (w % 2 ^ nbits)).map decode

end Sys2Proof
end

