-- ==== Sys2Proof/Machine/State.lean ====
section
/-!
DEFINITION. The state of one instance of the mixer (10_state R20 to R39), the input pins the host drives,
the reasons a step could stop, and the state after reset.

The core has no program counter, no register file, no flags register and no memory (R20, R24, R29;
20_memory R40), so State has none.
-/

namespace Sys2Proof.Machine

/-- PHASE (10_state R26). All four encodings are legal. -/
inductive Phase where
  /-- 0: no message since reset. -/
  | idle
  /-- 1: a message is open. -/
  | absorb
  /-- 2: the last message is finished and DIGEST holds its digest. -/
  | done
  /-- 3: a fault has been taken. -/
  | fault
  deriving DecidableEq, Repr

/-- ERR (10_state R27): the code of the fault that put the core in FAULT, or NONE. All eight encodings are
legal. -/
inductive ErrCode where
  /-- 0: no fault since reset. -/
  | none
  /-- 1: a reserved opcode. -/
  | illCmd
  /-- 2: START with a length that is no multiple of the unit. -/
  | lenErr
  /-- 3: START while a message is open. -/
  | seqStart
  /-- 4: ABSORB while no message is open. -/
  | seqAbsorb
  /-- 5: ABSORB of a word too many. -/
  | overrun
  /-- 6: FINISH with words missing. -/
  | underrun
  /-- 7: FINISH while no message is open. -/
  | seqFinish
  deriving DecidableEq, Repr

/-- One sample of the handshake pins (10_state R35): the host's inputs `rst`, `cmd_valid` and `cmd`, and
the core's own `cmd_ready`, which the spec lets be low for any finite time and fixes no further
(70_reset_and_hazards R161; assumption 2). -/
structure Pins where
  rst : Bool
  cmdValid : Bool
  cmdReady : Bool
  cmd : Token
  deriving DecidableEq, Repr

/-- What can cause a transition (00_scope R17): an accepted token, or a reset event. -/
inductive HostEvent where
  | token (c : Token)
  | reset
  deriving DecidableEq, Repr

/-- The machine state (10_state R38): the registers and nothing else. The configuration, the token
sequence, the message buffer, and the seed and length after START are no part of it. -/
structure Registers where
  /-- H, the accumulator (10_state R21). -/
  h : Word64
  /-- NW, the message's word count (R22). -/
  nw : Count
  /-- IDX, the index of the next word to absorb (R23). -/
  idx : Count
  /-- PHASE (R26). -/
  phase : Phase
  /-- ERR (R27). -/
  err : ErrCode
  /-- DIGEST, the result register (R28). -/
  digest : Word32
  deriving DecidableEq, Repr

/-- What the host's interface steps: the machine state with the two arguments of the spec's step function
beside it, since that interface fixes a step whose one argument is a state. The step function itself is
`transition`, which takes them as arguments (10_state R38, assumptions 1 and 2). -/
structure State extends Registers where
  /-- The configuration the instance is built with, which no transition and no reset writes
  (70_reset_and_hazards R150; assumption 1). -/
  cfg : Config
  /-- The token sequence, as what the pins will show, oldest sample first: the host's presentations and
  resets (00_scope R17, assumption 2). -/
  pins : List Pins
  deriving DecidableEq, Repr

/-- The reasons the machine could stop. There is none: every token in every state has a transition
(30_encoding R61) and no run hangs (70_reset_and_hazards R162). The FAULTS OF THE SPEC are transitions into
`PHASE = FAULT` with a code in ERR (60_exceptions R136), and so next states. Nobody raises this type: safe
(assumption 9). -/
inductive Fault where
  deriving DecidableEq, Repr

/-- The reasons an instruction could have no meaning. -/
inductive Refusal where
  /-- Raised by an arm of `exec` for an instruction that has no meaning yet. Safe: nothing is claimed of
  it. Every row of the opcode table has its meaning, so nothing raises it. -/
  | notModelled (mnemonic : String)
  deriving DecidableEq, Repr

/-- The reset values (10_state R37). -/
def Registers.reset : Registers where
  h := 0
  nw := 0
  idx := 0
  phase := .idle
  err := .none
  digest := 0

/-- The state right after a reset event of an instance built with `c` (10_state R37): every register at
its reset value, nothing presented at the pins. -/
def State.resetOf (c : Config) : State where
  toRegisters := Registers.reset
  cfg := c
  pins := []

/-- The machine right after reset. -/
def State.reset : State := State.resetOf Config.atReset

end Sys2Proof.Machine
end

