-- ==== Sys2Proof/Machine/Flags.lean ====
section
/-!
DEFINITION. The status flags. The core has no condition codes, and no arithmetic operation sets a flag
(10_state R29); its two status flags are functions of PHASE, and its coded fields are shown as bits
(R26, R27, R28).
-/

namespace Sys2Proof.Machine

/-- `valid = (PHASE = DONE)` (10_state R29). -/
def validFlag (s : State) : Bool := s.phase == .done

/-- `fault = (PHASE = FAULT)` (10_state R29). -/
def faultFlag (s : State) : Bool := s.phase == .fault

/-- The two bits of PHASE (10_state R26). -/
def phaseBits : Phase → BitVec 2
  | .idle => 0
  | .absorb => 1
  | .done => 2
  | .fault => 3

/-- The three bits of ERR (10_state R27). -/
def errBits : ErrCode → BitVec 3
  | .none => 0
  | .illCmd => 1
  | .lenErr => 2
  | .seqStart => 3
  | .seqAbsorb => 4
  | .overrun => 5
  | .underrun => 6
  | .seqFinish => 7

/-- `CFG[0]`: 0 for W64, 1 for W32 (10_state R28). -/
def cfgWidthBit : Width → BitVec 1
  | .w64 => 0
  | .w32 => 1

/-- `CFG[1]`: 0 for FULL, 1 for OPT (10_state R28). -/
def cfgProfileBit : Profile → BitVec 1
  | .full => 0
  | .opt => 1

/-- CFG, hard-wired by the configuration: `CFG[1]` above `CFG[0]` (10_state R28). -/
def cfgBits (c : Config) : BitVec 2 := cfgProfileBit c.profile ++ cfgWidthBit c.width

end Sys2Proof.Machine
end

