-- ==== Sys2Proof/Machine/Arith.lean ====
section
/-!
DEFINITION. The operators of the datapath beyond `+`, `*` and XOR on bit vectors (00_scope R11 to R14,
42_finish R115, R116).
-/

namespace Sys2Proof.Machine

/-- `rotl_N(a, r)`, defined for every natural `r` by its residue modulo `N` (00_scope R13). -/
def rotl {n : Nat} (a : BitVec n) (r : Nat) : BitVec n :=
  if r % n = 0 then a else (a <<< (r % n)) ||| (a >>> (n - r % n))

/-- `XS_N(h, s) = h XOR (h >>_N s)`, the shift-XOR step (42_finish R115). -/
def xs {n : Nat} (h : BitVec n) (s : Nat) : BitVec n := h ^^^ (h >>> s)

/-- `zext_64(v)` of a `u32` (00_scope R14). -/
def zext64 (v : Word32) : Word64 := v.setWidth 64

/-- `sext_64(v)` of a `u32`: part of the fixed notation and used by no rule (00_scope R14). -/
def sext64 (v : Word32) : Word64 := v.signExtend 64

/-- `lo32(v) = v[31:0]` (00_scope R14). -/
def lo32 (v : Word64) : Word32 := v.extractLsb' 0 32

/-- `hi32(v) = v[63:32]` (00_scope R14). -/
def hi32 (v : Word64) : Word32 := v.extractLsb' 32 32

/-- `Fold64(h) = lo32(h) XOR hi32(h)` (42_finish R116). -/
def fold64 (h : Word64) : Word32 := lo32 h ^^^ hi32 h

end Sys2Proof.Machine
end

