-- ==== Sys2Proof/Machine/Operands.lean ====
section
/-!
DEFINITION. The operands of the three commands: the unit, the length check, the word count and the word of
an ABSORB payload (00_scope R5, R15; 30_encoding R62, R63; 40_start R81, R82; 41_absorb R90). No command
names a register: every other operand is implied by the opcode (10_state R20).
-/

namespace Sys2Proof.Machine

/-- UNIT, the bytes of a word (00_scope R5). -/
def unit : Width → Nat
  | .w64 => 8
  | .w32 => 4

/-- LOG2UNIT (00_scope R5). -/
def log2Unit : Width → Nat
  | .w64 => 3
  | .w32 => 2

/-- `len mod UNIT = 0` (40_start R82). -/
def lenLegal (w : Width) (len : Word32) : Bool := len.toNat % unit w == 0

/-- `len >> LOG2UNIT`, in the 30 bits of NW (40_start R81, 10_state R22). -/
def wordCount (w : Width) (len : Word32) : Count := (len >>> log2Unit w).setWidth 30

/-- The word of an ABSORB in W64: `cmd[63:0]` (41_absorb R90). -/
def absorbWord64 (payload : Word64) : Word64 := payload

/-- The word of an ABSORB in W32: `cmd[31:0]`; `cmd[63:32]` is ignored (41_absorb R90). -/
def absorbWord32 (payload : Word64) : Word32 := lo32 payload

end Sys2Proof.Machine
end

