-- ==== Sys2Proof/Machine/Ops.lean ====
section
/-!
DEFINITION. The shared operations on the state: taking a fault, ignoring a token in FAULT, the register
writes of the three commands, the reset event, and what one sample of the pins makes the core do.
-/

namespace Sys2Proof.Machine

/-- Fault entry, the meaning of `raise` in every rule: PHASE and ERR are written and nothing else
(60_exceptions R136). Control goes nowhere and nothing is saved (R137). -/
def raise (e : ErrCode) (r : Registers) : Registers := { r with phase := .fault, err := e }

/-- While `PHASE = FAULT` every accepted token is ignored; otherwise the token's own transition `f` is
taken (30_encoding R61, 60_exceptions R138). -/
def unlessFaulted (f : Registers → Registers) (r : Registers) : Registers :=
  match r.phase with
  | .fault => r
  | _ => f r

/-- The writes of a non-faulting START (40_start R81). -/
def openMessage (h : Word64) (nw : Count) (r : Registers) : Registers :=
  { r with h := h, nw := nw, idx := 0, digest := 0, phase := .absorb }

/-- The writes of a non-faulting ABSORB (41_absorb R92). -/
def takeWord (h : Word64) (r : Registers) : Registers := { r with h := h, idx := r.idx + 1 }

/-- The writes of a non-faulting FINISH (42_finish R118). -/
def closeMessage (h : Word64) (digest : Word32) (r : Registers) : Registers :=
  { r with h := h, digest := digest, phase := .done }

/-- A change of the registers, given the configuration, as a change of the state: the configuration and
the pins stay as they are (10_state R38). -/
def State.onRegisters (f : Config → Registers → Registers) (s : State) : State :=
  { s with toRegisters := f s.cfg s.toRegisters }

/-- The reset event, the one way out of FAULT: every register takes its reset value; the configuration is
not touched (70_reset_and_hazards R150, 60_exceptions R139). What is still to come at the pins is the host's
and stays. -/
def resetEvent (s : State) : State := s.onRegisters fun _ _ => Registers.reset

/-- A token is accepted exactly when `cmd_valid` and `cmd_ready` are both asserted (10_state R35) and no
reset is (60_exceptions R135). -/
def accepted (p : Pins) : Bool := p.cmdValid && p.cmdReady && !p.rst

/-- What one sample of the pins causes: a reset, which has priority over everything (60_exceptions R135),
an accepted token, or nothing. -/
def eventOf (p : Pins) : Option HostEvent :=
  if p.rst then some .reset
  else if accepted p then some (.token p.cmd)
  else none

/-- The oldest sample of the pins, as the event it causes, and the state that has it behind. When the host
presents nothing more there is no event and the core stays as it is (00_scope R17, 70_reset_and_hazards
R162). -/
def nextEvent (s : State) : Option HostEvent × State :=
  match s.pins with
  | [] => (none, s)
  | p :: rest => (eventOf p, { s with pins := rest })

/-- The pins while a host presents the token `c` and the core is ready for it. -/
def presented (c : Token) : Pins := { rst := false, cmdValid := true, cmdReady := true, cmd := c }

/-- The pins at which an event happens: how a host brings it about. -/
def pinsOf : HostEvent → Pins
  | .token c => presented c
  | .reset => { rst := true, cmdValid := false, cmdReady := false, cmd := 0 }

end Sys2Proof.Machine
end

