-- ==== Sys2Proof/Machine/Rounds.lean ====
section
/-!
DEFINITION. The round functions of ABSORB, one for each of the four variants (41_absorb R93 to R99). The
64-bit variants share one shape, the 32-bit variants another; a variant is the shape at its rotation
amounts and constants (10_state R33).
-/

namespace Sys2Proof.Machine

/-- Where a word stands in a W64/FULL message (41_absorb R93). -/
inductive Position where
  /-- A block word at block position `j`. -/
  | block (j : Fin 4)
  /-- A tail word; `n` is the countdown `r = NW - IDX` less one, so `r` is 1, 2 or 3. -/
  | tail (n : Fin 3)
  deriving DecidableEq, Repr

/-- The position of word `idx` of a message of `nw` words: a block word while a whole block of four holds
it, a tail word after (41_absorb R93). -/
def position (nw idx : Nat) : Position :=
  if idx < 4 * (nw / 4) then .block ⟨idx % 4, by omega⟩
  else .tail ⟨(nw - idx - 1) % 3, by omega⟩

/-- First round constant, second round constant and multiplier of a position (41_absorb R94, R95). -/
def positionConsts (c : Config) : Position → Word64 × Word64 × Word32
  | .block j => (c.consts.k5[c.sel.kaB[j]], c.consts.k5[c.sel.kbB[j]], c.consts.m64fB[j])
  | .tail n => (c.consts.k5[c.sel.kaT[n]], c.consts.k5[c.sel.kbT[n]], c.consts.m64fT[n])

/-- The shape of a 64-bit round: the word is XORed with `a`, rotated by `r1`, XORed with `b` and folded into
the accumulator, which is rotated by `r2` and multiplied by `m` (41_absorb R96, R97). -/
def round64 (r1 r2 : Nat) (a b m h w : Word64) : Word64 :=
  rotl (h ^^^ (rotl (w ^^^ a) r1 ^^^ b)) r2 * m

/-- The shape of a 32-bit round: the word is multiplied by `c1`, rotated by `r1`, multiplied by `c2` and
folded into the accumulator, which is rotated by `r2`, multiplied by 5 and increased by `n`
(41_absorb R98, R99). -/
def round32 (r1 r2 : Nat) (c1 c2 n h w : Word32) : Word32 :=
  rotl (h ^^^ rotl (w * c1) r1 * c2) r2 * 5 + n

/-- Round of W64/FULL (41_absorb R96). -/
def roundW64Full (c : Config) (nw idx : Nat) (h w : Word64) : Word64 :=
  match positionConsts c (position nw idx) with
  | (a, b, m) => round64 21 17 a b (zext64 m) h w

/-- Entry `i mod 3` of `K3` (41_absorb R97). -/
def k3At (c : Config) (i : Nat) : Word64 := c.consts.k3[(⟨i % 3, by omega⟩ : Fin 3)]

/-- Round of W64/OPT (41_absorb R97). -/
def roundW64Opt (c : Config) (idx : Nat) (h w : Word64) : Word64 :=
  round64 13 9 (k3At c idx) (k3At c (idx + 1)) c.consts.m64o h w

/-- Round of W32/FULL (41_absorb R98). -/
def roundW32Full (c : Config) (h w : Word32) : Word32 :=
  round32 15 13 c.consts.c1 c.consts.c2 c.consts.n32 h w

/-- Round of W32/OPT (41_absorb R99). -/
def roundW32Opt (c : Config) (h w : Word32) : Word32 :=
  round32 13 7 c.consts.c1o c.consts.c2o c.consts.n32o h w

/-- The new accumulator of an ABSORB with this payload: the round of the variant (30_encoding R68,
41_absorb R92). In W32 only `H[31:0]` and `cmd[31:0]` are read, and `H[63:32]` is written with zero
(10_state R21). -/
def roundOf (c : Config) (nw idx : Nat) (h payload : Word64) : Word64 :=
  match c.width, c.profile with
  | .w64, .full => roundW64Full c nw idx h (absorbWord64 payload)
  | .w64, .opt => roundW64Opt c idx h (absorbWord64 payload)
  | .w32, .full => zext64 (roundW32Full c (lo32 h) (absorbWord32 payload))
  | .w32, .opt => zext64 (roundW32Opt c (lo32 h) (absorbWord32 payload))

end Sys2Proof.Machine
end

