-- ==== Sys2Proof/Machine/Absorb.lean ====
section
/-!
DEFINITION. The meaning of ABSORB (41_absorb R90 to R92).
-/

namespace Sys2Proof.Machine

/-- ABSORB outside FAULT: the phase check, the overrun check, then the round and its writes
(41_absorb R91). A state with `IDX > NW`, which no run reaches (10_state R25), takes OVERRUN
(assumption 5). -/
def absorbLive (payload : Word64) (c : Config) (r : Registers) : Registers :=
  match r.phase with
  | .absorb =>
    if r.idx < r.nw then
      takeWord (roundOf c r.nw.toNat r.idx.toNat r.h payload) r
    else raise .overrun r
  | _ => raise .seqAbsorb r

/-- The transition of ABSORB (41_absorb R90). -/
def absorbTransition (payload : Word64) (c : Config) (r : Registers) : Registers :=
  unlessFaulted (absorbLive payload c) r

/-- `ABSORB word` (41_absorb R90). -/
def execAbsorb (payload : Word64) (s : State) : Host.Outcome State Fault Refusal :=
  .next (s.onRegisters (absorbTransition payload))

end Sys2Proof.Machine
end

