-- ==== Sys2Proof/Machine/Finalizers.lean ====
section
/-!
DEFINITION. The finalizers of FINISH and the digest fold (42_finish R112 to R116).
-/

namespace Sys2Proof.Machine

/-- `Fin64F(H)`, of W64/FULL (42_finish R112). -/
def fin64F (c : Config) (h : Word64) : Word64 :=
  xs (xs (xs h 29 * c.consts.f1) 33 * c.consts.f2) 33

/-- `Fin64O(H)`, of W64/OPT (42_finish R113). -/
def fin64O (c : Config) (h : Word64) : Word64 :=
  xs (xs h 15 * c.consts.g1) 15 * c.consts.g2

/-- `Fin32(h0)`, of both 32-bit variants (42_finish R114). -/
def fin32 (c : Config) (h : Word32) : Word32 :=
  xs (xs (xs h 16 * c.consts.p1) 13 * c.consts.p2) 16

/-- The accumulator a FINISH leaves: the finalizer of the variant (30_encoding R68, 42_finish R118). -/
def finalOf (c : Config) (h : Word64) : Word64 :=
  match c.width, c.profile with
  | .w64, .full => fin64F c h
  | .w64, .opt => fin64O c h
  | .w32, _ => zext64 (fin32 c (lo32 h))

/-- The digest of a finalised accumulator: the fold of its halves in W64, its low half in W32, where there
is no fold (42_finish R116, R118). -/
def digestOf (w : Width) (hf : Word64) : Word32 :=
  match w with
  | .w64 => fold64 hf
  | .w32 => lo32 hf

end Sys2Proof.Machine
end

