-- ==== Sys2Proof/Machine/Finish.lean ====
section
/-!
DEFINITION. The meaning of FINISH (42_finish R110, R111, R118).
-/

namespace Sys2Proof.Machine

/-- FINISH outside FAULT: the phase check, the underrun check, then the finalizer, the fold and the writes
(42_finish R110). A state with `IDX > NW`, which no run reaches (10_state R25), finishes (assumption 5). -/
def finishLive (c : Config) (r : Registers) : Registers :=
  match r.phase with
  | .absorb =>
    if r.idx < r.nw then raise .underrun r
    else closeMessage (finalOf c r.h) (digestOf c.width (finalOf c r.h)) r
  | _ => raise .seqFinish r

/-- The transition of FINISH (42_finish R110). -/
def finishTransition (c : Config) (r : Registers) : Registers := unlessFaulted (finishLive c) r

/-- `FINISH`; its payload is ignored (42_finish R110, 30_encoding R66). -/
def execFinish (_payload : Word64) (s : State) : Host.Outcome State Fault Refusal :=
  .next (s.onRegisters finishTransition)

end Sys2Proof.Machine
end

