-- ==== Sys2Proof/Machine/Reserved.lean ====
section
/-!
DEFINITION. The meanings of the thirteen reserved opcodes: each takes the fault ILLCMD, whatever its payload
(30_encoding R65, 60_exceptions R131), unless the core is in FAULT, where it is ignored (R138).
-/

namespace Sys2Proof.Machine

/-- An illegal token (30_encoding R65). -/
def illegal (_c : Config) (r : Registers) : Registers := unlessFaulted (raise .illCmd) r

/-- `op = 0x0` (30_encoding R65). -/
def execReserved0 (_payload : Word64) (s : State) : Host.Outcome State Fault Refusal :=
  .next (s.onRegisters illegal)

/-- `op = 0x4` (30_encoding R65). -/
def execReserved4 (_payload : Word64) (s : State) : Host.Outcome State Fault Refusal :=
  .next (s.onRegisters illegal)

/-- `op = 0x5` (30_encoding R65). -/
def execReserved5 (_payload : Word64) (s : State) : Host.Outcome State Fault Refusal :=
  .next (s.onRegisters illegal)

/-- `op = 0x6` (30_encoding R65). -/
def execReserved6 (_payload : Word64) (s : State) : Host.Outcome State Fault Refusal :=
  .next (s.onRegisters illegal)

/-- `op = 0x7` (30_encoding R65). -/
def execReserved7 (_payload : Word64) (s : State) : Host.Outcome State Fault Refusal :=
  .next (s.onRegisters illegal)

/-- `op = 0x8` (30_encoding R65). -/
def execReserved8 (_payload : Word64) (s : State) : Host.Outcome State Fault Refusal :=
  .next (s.onRegisters illegal)

/-- `op = 0x9` (30_encoding R65). -/
def execReserved9 (_payload : Word64) (s : State) : Host.Outcome State Fault Refusal :=
  .next (s.onRegisters illegal)

/-- `op = 0xA` (30_encoding R65). -/
def execReservedA (_payload : Word64) (s : State) : Host.Outcome State Fault Refusal :=
  .next (s.onRegisters illegal)

/-- `op = 0xB` (30_encoding R65). -/
def execReservedB (_payload : Word64) (s : State) : Host.Outcome State Fault Refusal :=
  .next (s.onRegisters illegal)

/-- `op = 0xC` (30_encoding R65). -/
def execReservedC (_payload : Word64) (s : State) : Host.Outcome State Fault Refusal :=
  .next (s.onRegisters illegal)

/-- `op = 0xD` (30_encoding R65). -/
def execReservedD (_payload : Word64) (s : State) : Host.Outcome State Fault Refusal :=
  .next (s.onRegisters illegal)

/-- `op = 0xE` (30_encoding R65). -/
def execReservedE (_payload : Word64) (s : State) : Host.Outcome State Fault Refusal :=
  .next (s.onRegisters illegal)

/-- `op = 0xF` (30_encoding R65). -/
def execReservedF (_payload : Word64) (s : State) : Host.Outcome State Fault Refusal :=
  .next (s.onRegisters illegal)

end Sys2Proof.Machine
end

