-- ==== Sys2Proof/Machine/Start.lean ====
section
/-!
DEFINITION. The meaning of START (40_start R80 to R84).
-/

namespace Sys2Proof.Machine

/-- START outside FAULT: the phase check, the length check, then the writes (40_start R80). -/
def startLive (len seed : Word32) (c : Config) (r : Registers) : Registers :=
  match r.phase with
  | .absorb => raise .seqStart r
  | _ =>
    if lenLegal c.width len then
      openMessage (zext64 (seed ^^^ len)) (wordCount c.width len) r
    else raise .lenErr r

/-- The transition of START (40_start R80). -/
def startTransition (len seed : Word32) (c : Config) (r : Registers) : Registers :=
  unlessFaulted (startLive len seed c) r

/-- `START len, seed` (40_start R80). -/
def execStart (len seed : Word32) (s : State) : Host.Outcome State Fault Refusal :=
  .next (s.onRegisters (startTransition len seed))

end Sys2Proof.Machine
end

