-- ==== Sys2Proof/Machine/Dispatch.lean ====
section
/-!
DEFINITION. The one dispatch of an instruction to its meaning (30_encoding R68).
-/

namespace Sys2Proof.Machine

def exec (i : Instr) (s : State) : Host.Outcome State Fault Refusal :=
  match i with
  | .start len seed => Sys2Proof.Machine.execStart len seed s
  | .absorb payload => Sys2Proof.Machine.execAbsorb payload s
  | .finish payload => Sys2Proof.Machine.execFinish payload s
  | .reserved0 payload => Sys2Proof.Machine.execReserved0 payload s
  | .reserved4 payload => Sys2Proof.Machine.execReserved4 payload s
  | .reserved5 payload => Sys2Proof.Machine.execReserved5 payload s
  | .reserved6 payload => Sys2Proof.Machine.execReserved6 payload s
  | .reserved7 payload => Sys2Proof.Machine.execReserved7 payload s
  | .reserved8 payload => Sys2Proof.Machine.execReserved8 payload s
  | .reserved9 payload => Sys2Proof.Machine.execReserved9 payload s
  | .reservedA payload => Sys2Proof.Machine.execReservedA payload s
  | .reservedB payload => Sys2Proof.Machine.execReservedB payload s
  | .reservedC payload => Sys2Proof.Machine.execReservedC payload s
  | .reservedD payload => Sys2Proof.Machine.execReservedD payload s
  | .reservedE payload => Sys2Proof.Machine.execReservedE payload s
  | .reservedF payload => Sys2Proof.Machine.execReservedF payload s

end Sys2Proof.Machine
end

