-- ==== Sys2Proof/Machine/Step.lean ====
section
/-!
DEFINITION. One step: the oldest sample of the pins is taken, and the event it causes has its effect
(00_scope R17, 30_encoding R61). The core fetches nothing (10_state R24): a program is the list of tokens
the host presents (20_memory R49).
-/

namespace Sys2Proof.Machine

/-- One step of the machine: one transition per accepted token, one per reset event, and none otherwise. -/
def step (s : State) : Host.Outcome State Fault Refusal :=
  match nextEvent s with
  | (none, s') => .next s'
  | (some .reset, s') => .next (resetEvent s')
  | (some (.token c), s') => exec (decode c) s'

/-- The state in which the host presents the token whose bits are `w` next, and the core is ready for it
(assumption 8). A number of `2^68` or more is no token; of it, DESIGN CHOICE (assumption 15), the low 68 bits
are presented, while `decodeTableWord` refuses it. -/
def State.withFetchWord (s : State) (nbits w : Nat) : State :=
  { s with pins := presented (BitVec.ofNat 68 (w % 2 ^ nbits)) :: s.pins }

end Sys2Proof.Machine
end

