-- ==== Sys2Proof/Machine/Message.lean ====
section
/-!
DEFINITION. The message space and the feeder's side (20_memory R40 to R46): how the bytes of a buffer become
the words of ABSORB tokens, the tokens of a message (70_reset_and_hazards R154), and the function `Digest`
the core implements (00_scope R18). The core has no memory port: none of this is state (10_state R38).
-/

namespace Sys2Proof.Machine

/-- `MemRead(addr, n)` of a message of `len` bytes: undefined beyond `len` (20_memory R41), and where the
buffer has no such byte. -/
def memRead (buf : List Byte) (len addr n : Nat) : Option (List Byte) :=
  if addr + n ≤ len ∧ len ≤ buf.length then some ((buf.drop addr).take n) else none

/-- The value of bytes whose first is the least significant. -/
def leValue : List Byte → Nat
  | [] => 0
  | b :: bs => b.toNat + 256 * leValue bs

/-- `Word(b[0] .. b[n-1])` in the byte order (20_memory R43), at most eight bytes. -/
def wordOf (o : ByteOrder) (bs : List Byte) : Word64 :=
  match o with
  | .le => BitVec.ofNat 64 (leValue bs)
  | .be => BitVec.ofNat 64 (leValue bs.reverse)

/-- `MsgWord(i)`, defined for `i < NW` (20_memory R42); in W32 the word is the low half and the upper half
is zero, as the assembler sets it (30_encoding R69). -/
def msgWord (c : Config) (buf : List Byte) (len : Word32) (i : Nat) : Option Word64 :=
  if i < (wordCount c.width len).toNat then
    (memRead buf len.toNat (unit c.width * i) (unit c.width)).map (wordOf c.byteOrder)
  else none

/-- The words `MsgWord(i), MsgWord(i + 1), ...`, as many as the first argument says. -/
def msgWordsFrom (c : Config) (buf : List Byte) (len : Word32) : Nat → Nat → Option (List Word64)
  | 0, _ => some []
  | k + 1, i =>
    match msgWord c buf len i, msgWordsFrom c buf len k (i + 1) with
    | some w, some ws => some (w :: ws)
    | _, _ => none

/-- All words of a message, in index order (20_memory R46). -/
def msgWords (c : Config) (buf : List Byte) (len : Word32) : Option (List Word64) :=
  msgWordsFrom c buf len (wordCount c.width len).toNat 0

/-- The tokens of one message: START, the words in order, FINISH (70_reset_and_hazards R154). -/
def messageTokens (len seed : Word32) (words : List Word64) : List Token :=
  encode (.start len seed) :: (words.map (fun w => encode (.absorb w)) ++ [encode (.finish 0)])

/-- The accumulator after the words `ws`, of which the first has index `i`, in a message of `nw` words. -/
def absorbAll (c : Config) (nw : Nat) : Nat → Word64 → List Word64 → Word64
  | _, h, [] => h
  | i, h, w :: ws => absorbAll c nw (i + 1) (roundOf c nw i h w) ws

/-- The digest of a message given by its words: initialise, fold the words in, finalise, fold
(00_scope R3, R18). -/
def messageDigest (c : Config) (len seed : Word32) (words : List Word64) : Word32 :=
  digestOf c.width
    (finalOf c (absorbAll c (wordCount c.width len).toNat 0 (zext64 (seed ^^^ len)) words))

/-- `Digest(cfg, buf, len, seed)`: defined for a length that is a multiple of the unit and a buffer that has
that many bytes (00_scope R18). -/
def digestFn (c : Config) (buf : List Byte) (len seed : Word32) : Option Word32 :=
  if lenLegal c.width len then (msgWords c buf len).map (messageDigest c len seed) else none

end Sys2Proof.Machine
end

