-- ==== Sys2Proof/Machine/Assembler.lean ====
section
/-!
DEFINITION. The assembler's statements and what they assemble to (30_encoding R69 to R71): tokens and
reset events, in listing order. It is the host's tool and no part of the core; it reads characters, so
that a line of a listing has one meaning. What R69 to R71 leave open is fixed here as assumption 10 says.
-/

namespace Sys2Proof.Machine

/-- One statement of a listing (30_encoding R69 to R71). -/
inductive Stmt where
  | start (len seed : Nat)
  | absorb (word : Nat)
  | finish
  /-- `.token`, a token written out. -/
  | token (v : Nat)
  /-- `.reset`, a reset event. -/
  | reset
  /-- `.cfg`, the variant the listing is for. -/
  | cfg (w : Width) (p : Profile)
  /-- `HASH`, the pseudo-instruction. -/
  | hash (seed : Nat) (bytes : List Byte)
  deriving DecidableEq, Repr

/-- A number as a `u32`, when it fits (30_encoding R69). -/
def fits32 (v : Nat) : Option Word32 := if v < 2 ^ 32 then some (BitVec.ofNat 32 v) else none

/-- The payload of `ABSORB <word>`: the number must fit the word of the width, and in W32 the upper half is
zero (30_encoding R69). -/
def fitsWord (w : Width) (v : Nat) : Option Word64 :=
  if v < 2 ^ (8 * unit w) then some (BitVec.ofNat 64 v) else none

/-- The tokens of `HASH <seed>, <byte list>`; a list whose length is no multiple of the unit is rejected
(30_encoding R71). -/
def hashTokens (c : Config) (seed : Word32) (bytes : List Byte) : Option (List Token) :=
  match fits32 bytes.length with
  | none => none
  | some len =>
    if lenLegal c.width len then (msgWords c bytes len).map (messageTokens len seed) else none

/-- What a statement assembles to; `none` where the assembler rejects it (30_encoding R69 to R71). A `.token`
may write any token, also one that `START`, `ABSORB` or `FINISH` would write: DESIGN CHOICE (assumption 10),
since R69 names it for the others only. -/
def assembleStmt (c : Config) : Stmt → Option (List HostEvent)
  | .start len seed =>
    match fits32 len, fits32 seed with
    | some l, some s => some [.token (encode (.start l s))]
    | _, _ => none
  | .absorb word => (fitsWord c.width word).map fun w => [.token (encode (.absorb w))]
  | .finish => some [.token (encode (.finish 0))]
  | .token v => (tokenOfNat v).map fun t => [.token t]
  | .reset => some [.reset]
  | .cfg _ _ => some []
  | .hash seed bytes =>
    match fits32 seed with
    | some s => (hashTokens c s bytes).map fun ts => ts.map .token
    | none => none

/-- The events of a listing's statements, in order. One rejected statement rejects the whole listing:
DESIGN CHOICE (assumption 10), since R71 says only that the assembler rejects the line. -/
def assembleAll (c : Config) : List Stmt → Option (List HostEvent)
  | [] => some []
  | st :: rest =>
    match assembleStmt c st, assembleAll c rest with
    | some es, some es' => some (es ++ es')
    | _, _ => none

/-- A listing: the variant a `.cfg` at its head names is the one it is assembled for (30_encoding R70). -/
def assembleListing (c : Config) : List Stmt → Option (List HostEvent)
  | .cfg w p :: rest => assembleAll { c with width := w, profile := p } rest
  | stmts => assembleAll c stmts

/-- The value of a hexadecimal digit, either case. -/
def hexDigitValue (ch : Char) : Option Nat :=
  if '0'.toNat ≤ ch.toNat ∧ ch.toNat ≤ '9'.toNat then some (ch.toNat - '0'.toNat)
  else if 'a'.toNat ≤ ch.toNat ∧ ch.toNat ≤ 'f'.toNat then some (ch.toNat - 'a'.toNat + 10)
  else if 'A'.toNat ≤ ch.toNat ∧ ch.toNat ≤ 'F'.toNat then some (ch.toNat - 'A'.toNat + 10)
  else none

/-- The value of a run of digits of a base, after the digits whose value is `acc`. -/
def digitsValue (base : Nat) (acc : Nat) : List Char → Option Nat
  | [] => some acc
  | ch :: rest =>
    match hexDigitValue ch with
    | some d => if d < base then digitsValue base (acc * base + d) rest else none
    | none => none

/-- A number: decimal, or hexadecimal after `0x` (30_encoding R69). -/
def parseNumber : List Char → Option Nat
  | [] => none
  | '0' :: 'x' :: [] => none
  | '0' :: 'x' :: ds => digitsValue 16 0 ds
  | ds => digitsValue 10 0 ds

/-- A byte of a `HASH` list: two hexadecimal digits, as the listings of 95_test_vectors write it. -/
def parseByte : List Char → Option Byte
  | [a, b] => (digitsValue 16 0 [a, b]).map (BitVec.ofNat 8)
  | _ => none

/-- The bytes of a `HASH` list. -/
def parseBytes : List (List Char) → Option (List Byte)
  | [] => some []
  | x :: xs =>
    match parseByte x, parseBytes xs with
    | some b, some bs => some (b :: bs)
    | _, _ => none

/-- A space, a tab or a carriage return. -/
def isBlankChar (ch : Char) : Bool := ch == ' ' || ch == '\t' || ch == '\r'

/-- The words of a line up to its comment (`;` starts one, 30_encoding R69): runs of characters between
blanks, a comma being a word of its own. `cur` is the run so far, last character first. -/
def lexLine (cur : List Char) : List Char → List (List Char)
  | [] => if cur.isEmpty then [] else [cur.reverse]
  | ch :: rest =>
    let done := if cur.isEmpty then [] else [cur.reverse]
    if ch == ';' then done
    else if isBlankChar ch then done ++ lexLine [] rest
    else if ch == ',' then done ++ [[',']] ++ lexLine [] rest
    else lexLine (ch :: cur) rest

/-- The variant a `.cfg` names (30_encoding R70, 00_scope R7). -/
def parseVariant : List Char → Option (Width × Profile)
  | ['W', '6', '4', '/', 'F', 'U', 'L', 'L'] => some (.w64, .full)
  | ['W', '6', '4', '/', 'O', 'P', 'T'] => some (.w64, .opt)
  | ['W', '3', '2', '/', 'F', 'U', 'L', 'L'] => some (.w32, .full)
  | ['W', '3', '2', '/', 'O', 'P', 'T'] => some (.w32, .opt)
  | _ => none

/-- The token `.token` writes out: `0x` and 17 hexadecimal digits (30_encoding R69), whatever token they are
(assumption 10). -/
def parseToken : List Char → Option Nat
  | '0' :: 'x' :: ds => if ds.length = 17 then digitsValue 16 0 ds else none
  | _ => none

/-- The statement the words of a line make: `none` for a line the assembler rejects, `some []` for a line
with no statement. -/
def parseWords : List (List Char) → Option (List Stmt)
  | [] => some []
  | [['S', 'T', 'A', 'R', 'T'], len, [','], seed] =>
    match parseNumber len, parseNumber seed with
    | some l, some s => some [.start l s]
    | _, _ => none
  | [['A', 'B', 'S', 'O', 'R', 'B'], word] => (parseNumber word).map fun w => [.absorb w]
  | [['F', 'I', 'N', 'I', 'S', 'H']] => some [.finish]
  | [['.', 't', 'o', 'k', 'e', 'n'], v] => (parseToken v).map fun t => [.token t]
  | [['.', 'r', 'e', 's', 'e', 't']] => some [.reset]
  | [['.', 'c', 'f', 'g'], v] => (parseVariant v).map fun wp => [.cfg wp.1 wp.2]
  | ['H', 'A', 'S', 'H'] :: seed :: [','] :: bytes =>
    match parseNumber seed, parseBytes bytes with
    | some s, some bs => some [.hash s bs]
    | _, _ => none
  | _ => none

/-- One line of a listing (30_encoding R69). -/
def parseLine (line : List Char) : Option (List Stmt) := parseWords (lexLine [] line)

/-- A listing, one statement a line (30_encoding R69). One rejected line rejects the whole listing: DESIGN
CHOICE (assumption 10). -/
def parseListing : List (List Char) → Option (List Stmt)
  | [] => some []
  | l :: ls =>
    match parseLine l, parseListing ls with
    | some a, some b => some (a ++ b)
    | _, _ => none

/-- A listing, from its lines to its events. -/
def assembleText (c : Config) (lines : List (List Char)) : Option (List HostEvent) :=
  match parseListing lines with
  | some stmts => assembleListing c stmts
  | none => none

/-- The hexadecimal digit of a value below 16. -/
def hexDigit (d : Nat) : Char := if d < 10 then Char.ofNat (48 + d) else Char.ofNat (87 + d)

/-- The `n` lowest hexadecimal digits of a number, most significant first. -/
def hexDigits : Nat → Nat → List Char
  | 0, _ => []
  | n + 1, v => hexDigits n (v / 16) ++ [hexDigit (v % 16)]

/-- A token as listings write it: 17 hexadecimal digits, `op` first (30_encoding R69). -/
def tokenListing (t : Token) : List Char := hexDigits 17 t.toNat

end Sys2Proof.Machine
end

