-- ==== Sys2Proof/Machine/Transition.lean ====
section
/-!
DEFINITION. The step function as the spec gives it (10_state R38): the configuration and the token are
arguments, and the registers alone are the state. `exec` and `step` put it behind the host's interface.
-/

namespace Sys2Proof.Machine

/-- The transition of an instruction's token (30_encoding R61, R68). -/
def tokenTransition (i : Instr) (c : Config) (r : Registers) : Registers :=
  match i with
  | .start len seed => startTransition len seed c r
  | .absorb payload => absorbTransition payload c r
  | .finish _ => finishTransition c r
  | .reserved0 _ | .reserved4 _ | .reserved5 _ | .reserved6 _ | .reserved7 _ | .reserved8 _
  | .reserved9 _ | .reservedA _ | .reservedB _ | .reservedC _ | .reservedD _ | .reservedE _
  | .reservedF _ => illegal c r

/-- The step function: one transition per accepted token and one per reset event (00_scope R17). -/
def transition (c : Config) (r : Registers) : HostEvent → Registers
  | .token t => tokenTransition (decode t) c r
  | .reset => Registers.reset

/-- A run: the transitions of an event sequence, in order (70_reset_and_hazards R162). -/
def transitions (c : Config) (r : Registers) (es : List HostEvent) : Registers := es.foldl (transition c) r

end Sys2Proof.Machine
end

