-- ==== Sys2Proof/Machine/Ports.lean ====
section
/-!
DEFINITION. The output ports, functions of the state and of nothing else (10_state R34), the events a
sequence of pin samples causes (R35), and the result of a run (70_reset_and_hazards R162).
-/

namespace Sys2Proof.Machine

/-- What the host sees at the output ports (10_state R34). -/
structure Outputs where
  digestO : Word32
  validO : Bool
  faultO : Bool
  errO : BitVec 3
  phaseO : BitVec 2
  cfgO : BitVec 2
  deriving DecidableEq, Repr

/-- The output ports of a state (10_state R34). Reading them changes nothing (70_reset_and_hazards R157). -/
def outputs (s : State) : Outputs where
  digestO := s.digest
  validO := validFlag s
  faultO := faultFlag s
  errO := errBits s.err
  phaseO := phaseBits s.phase
  cfgO := cfgBits s.cfg

/-- `cmd_ready` at the sample the core is about to take; the spec leaves its schedule open (10_state R35),
and with no sample to come there is none (assumption 2). -/
def cmdReadyO (s : State) : Option Bool := s.pins.head?.map Pins.cmdReady

/-- The events a sequence of pin samples causes, in order: presentations that are not accepted do not count
(70_reset_and_hazards R156). -/
def eventsOf (ps : List Pins) : List HostEvent := ps.filterMap eventOf

/-- The state in which the host goes on to bring about the events `es`. -/
def State.withEvents (s : State) (es : List HostEvent) : State := { s with pins := es.map pinsOf }

/-- The result of a run, read from its last state (70_reset_and_hazards R162). -/
inductive RunResult where
  /-- PHASE = DONE: the digest of the last finished message. -/
  | digest (d : Word32)
  /-- PHASE = FAULT: no result; ERR names why. -/
  | faulted (e : ErrCode)
  /-- PHASE = ABSORB: a message is open and there is no result yet. -/
  | unfinished
  /-- PHASE = IDLE: no message was presented. -/
  | noMessage
  deriving DecidableEq, Repr

/-- The result of a run that ends in `s` (70_reset_and_hazards R162). -/
def runResult (s : State) : RunResult :=
  match s.phase with
  | .done => .digest s.digest
  | .fault => .faulted s.err
  | .absorb => .unfinished
  | .idle => .noMessage

end Sys2Proof.Machine
end

