-- ==== Sys2Proof/Safety.lean ====
section
/-!
DEFINITION. What claims about runs are stated in: the invariants of reachable states (10_state R22, R36), the
transitions of PHASE (R26), the phase by command table (60_exceptions R132), and the host's duty to hold a
token until it is accepted (70_reset_and_hazards R156).
-/

namespace Sys2Proof.Machine

/-- The invariants (a) to (f) of 10_state R36. -/
structure StateInv (s : State) : Prop where
  idx_le : s.idx ≤ s.nw
  err_iff : s.err ≠ .none ↔ s.phase = .fault
  high_zero : s.cfg.width = .w32 → hi32 s.h = 0
  idle_zero : s.phase = .idle → s.h = 0 ∧ s.nw = 0 ∧ s.idx = 0 ∧ s.digest = 0
  absorb_zero : s.phase = .absorb → s.digest = 0
  done_full : s.phase = .done → s.idx = s.nw

/-- The bound of 10_state R22 on the word count: `2^29 - 1` in W64, `2^30 - 1` in W32. -/
def countBound : Width → Nat
  | .w64 => 2 ^ 29 - 1
  | .w32 => 2 ^ 30 - 1

/-- The changes of PHASE that exist besides staying as it is (10_state R26): by START, by FINISH, by a
faulting token, by reset. -/
def phaseMoves : List (Phase × Phase) :=
  [(.idle, .absorb), (.done, .absorb), (.absorb, .done),
   (.idle, .fault), (.absorb, .fault), (.done, .fault),
   (.idle, .idle), (.absorb, .idle), (.done, .idle), (.fault, .idle)]

/-- The cell of the phase by command table for the instruction in this state: the fault it takes, or none
(60_exceptions R131, R132, R134). -/
def faultOf (i : Instr) (s : State) : Option ErrCode :=
  match s.phase, i with
  | .fault, _ => none
  | .absorb, .start _ _ => some .seqStart
  | _, .start len _ => if len.toNat % unit s.cfg.width = 0 then none else some .lenErr
  | .absorb, .absorb _ => if s.idx < s.nw then none else some .overrun
  | _, .absorb _ => some .seqAbsorb
  | .absorb, .finish _ => if s.idx < s.nw then some .underrun else none
  | _, .finish _ => some .seqFinish
  | _, _ => some .illCmd

/-- The host holds a presented token steady until it is accepted (70_reset_and_hazards R156). R156 says nothing
of a reset in between: that the duty ends there is the model's choice (DESIGN CHOICE, assumption 14). -/
def holdsTokens : List Pins → Bool
  | p :: q :: rest =>
    (!p.cmdValid || p.cmdReady || p.rst || (q.cmdValid && q.cmd == p.cmd)) && holdsTokens (q :: rest)
  | _ => true

end Sys2Proof.Machine
end

