-- ==== Sys2Proof/Certificates/Slice0/Obligations.lean ====
section
/-!
DEFINITION. The statements for the provers. Each quantifies over every state, so over every configuration,
since the configuration is a field of State (assumption 1). The core has no memory and no program counter
(20_memory R40, 10_state R24), so no frame speaks of them; the pins are the host's and are named where a
statement leaves them unchanged.
-/

open Sys2Proof Sys2Proof.Machine

/-! ### Encoding -/

/-- Decoding an encoded well-formed instruction gives it back, every operand at every value
(30_encoding R60 to R63). -/
def Obligations.DecodeOfEncode : Prop :=
  ∀ i : Instr, i.wellFormed = true → decode (encode i) = i

/-- Every one of the `2^68` tokens is the token of the instruction it decodes to: no bit of a token is
dropped, and two tokens never share an instruction (30_encoding R61). -/
def Obligations.EncodeOfDecode : Prop :=
  ∀ c : Token, encode (decode c) = c

/-- The opcode map as match and mask over the token (30_encoding R64): the three commands, and every other
token reserved. -/
def Obligations.OpcodeMapByMask : Prop :=
  ∀ c : Token,
    (c &&& 0xF0000000000000000#68 = 0x10000000000000000#68 ↔ ∃ len seed, decode c = .start len seed) ∧
    (c &&& 0xF0000000000000000#68 = 0x20000000000000000#68 ↔ ∃ p, decode c = .absorb p) ∧
    (c &&& 0xF0000000000000000#68 = 0x30000000000000000#68 ↔ ∃ p, decode c = .finish p) ∧
    ((c.extractLsb' 64 4 = 0#4 ∨ 4#4 ≤ c.extractLsb' 64 4) ↔ (decode c).isCommand = false)

/-- The three formats, bit by bit (30_encoding R62): the fields of START, ABSORB and FINISH. -/
def Obligations.FieldsOfFormats : Prop :=
  ∀ c : Token,
    (c.extractLsb' 64 4 = 0b0001#4 →
      decode c = .start (c.extractLsb' 32 32) (c.extractLsb' 0 32)) ∧
    (c.extractLsb' 64 4 = 0b0010#4 → decode c = .absorb (c.extractLsb' 0 64)) ∧
    (c.extractLsb' 64 4 = 0b0011#4 → decode c = .finish (c.extractLsb' 0 64))

/-- Words the spec writes out (40_start R85, 95_test_vectors 2.4, P5) decode to what they stand for. -/
def Obligations.WrittenTokensDecode : Prop :=
  decode 0x10000001812345678#68 = .start 0x18 0x12345678 ∧
  decode 0x10000001400000000#68 = .start 0x14 0 ∧
  decode 0x2ffffffff00000000#68 = .absorb 0xffffffff00000000 ∧
  decode 0x30000000000000000#68 = .finish 0 ∧
  decode 0x00000000000000000#68 = .reserved0 0 ∧
  decode 0xf000000000000007b#68 = .reservedF 0x7b

/-- A token written out as a listing's 17 hexadecimal digits is read back by `.token` (30_encoding R69). R69
names `.token` only for a reserved opcode and for a legal token whose ignored bits are not zero; that it also
reads a canonical START, ABSORB or FINISH token, and that a listing writes its digits in lower case, is the
model's choice (assumption 10). -/
def Obligations.ListedTokenReadsBack : Prop :=
  ∀ c : Token,
    (tokenListing c).length = 17 ∧ parseToken ('0' :: 'x' :: tokenListing c) = some c.toNat

/-! ### The step -/

/-- When the pins present a token, the core is ready and no reset is asserted, the step is `exec` of the
instruction the token decodes to, at the state that has this sample behind (00_scope R17, 10_state R35). -/
def Obligations.StepRunsPresentedToken : Prop :=
  ∀ (s : State) (p : Pins) (rest : List Pins),
    s.pins = p :: rest → p.cmdValid = true → p.cmdReady = true → p.rst = false →
    step s = exec (decode p.cmd) { s with pins := rest }

/-- A reset event, in any state and whatever token is presented with it, gives every register its reset
value, abandons the token and leaves the configuration (70_reset_and_hazards R150, 60_exceptions R135). -/
def Obligations.ResetOverridesToken : Prop :=
  ∀ (s : State) (p : Pins) (rest : List Pins),
    s.pins = p :: rest → p.rst = true →
    step s = .next
      { h := 0, nw := 0, idx := 0, phase := .idle, err := .none, digest := 0, cfg := s.cfg, pins := rest }

/-- A token that is not accepted, `cmd_valid` or `cmd_ready` being low, has no effect (10_state R35,
70_reset_and_hazards R156); only the sample of the pins is gone by. -/
def Obligations.UnacceptedTokenDoesNothing : Prop :=
  ∀ (s : State) (p : Pins) (rest : List Pins),
    s.pins = p :: rest → p.rst = false → (p.cmdValid = false ∨ p.cmdReady = false) →
    step s = .next { s with pins := rest }

/-- With nothing more at the pins the core stays as it is: it has no step of its own (00_scope R17). The
model lets such a step answer the same state (assumption 2). -/
def Obligations.CoreWaitsForHost : Prop :=
  ∀ s : State, s.pins = [] → step s = .next s

/-- The step function of 10_state R38, which takes the configuration and each event as arguments and has the
registers alone for its state, is what runs: over any samples of the pins a run ends with the registers its
transitions give, one for each event the samples cause, and the configuration as it was. So the handshake can
be abstracted away: running over the samples is running over their events (R35, 70_reset_and_hazards R156). -/
def Obligations.RunSkipsUnacceptedSamples : Prop :=
  ∀ (s : State) (ps : List Pins),
    Sys2Proof.core.run ps.length { s with pins := ps } =
      .next { s with
        toRegisters := transitions s.cfg s.toRegisters (eventsOf ps)
        pins := [] } ∧
    Sys2Proof.core.run ps.length { s with pins := ps } =
      Sys2Proof.core.run (eventsOf ps).length (s.withEvents (eventsOf ps))

/-- A host that holds every presented token until it is accepted loses none (70_reset_and_hazards R156):
without a reset, if the last sample leaves no presentation open, each sample `i` at which a token is presented
has a sample `j` at or after it that accepts this token, held from `i` to `j` with nothing else happening;
and the token stands in the sequence of events behind those of the samples before `j`, so that two
presentations of one token are two events. -/
def Obligations.HeldTokensAreAccepted : Prop :=
  ∀ (ps : List Pins) (last : Pins),
    holdsTokens (ps ++ [last]) = true →
    (∀ p ∈ ps ++ [last], p.rst = false) →
    (last.cmdValid = true → last.cmdReady = true) →
    ∀ (i : Nat) (p : Pins), (ps ++ [last])[i]? = some p → p.cmdValid = true →
      ∃ (j : Nat) (q : Pins), i ≤ j ∧ (ps ++ [last])[j]? = some q ∧ eventOf q = some (.token p.cmd) ∧
        (eventsOf (ps ++ [last]))[(eventsOf ((ps ++ [last]).take j)).length]? = some (.token p.cmd) ∧
        ∀ k : Nat, i ≤ k → k < j →
          ∃ r : Pins, (ps ++ [last])[k]? = some r ∧ r.cmdValid = true ∧ r.cmd = p.cmd ∧ eventOf r = none

/-! ### Reset -/

/-- The reset values, for every configuration, and what the ports then show; the configuration is not reset
(10_state R37). -/
def Obligations.ResetValues : Prop :=
  (∀ s : State, (resetEvent s).cfg = s.cfg ∧ outputs (resetEvent s) = outputs (State.resetOf s.cfg)) ∧
  State.reset = State.resetOf State.reset.cfg ∧
  ∀ c : Config,
    (State.resetOf c).h = 0 ∧ (State.resetOf c).nw = 0 ∧ (State.resetOf c).idx = 0 ∧
    (State.resetOf c).phase = .idle ∧ (State.resetOf c).err = .none ∧ (State.resetOf c).digest = 0 ∧
    (State.resetOf c).cfg = c ∧
    outputs (State.resetOf c) =
      { digestO := 0, validO := false, faultO := false, errO := 0, phaseO := 0,
        cfgO := cfgBits c }

/-- The instance `State.reset` describes has odd constants wherever the source states it
(10_state R30 to R32), whatever the open bits are; that its constants are open is the model's choice
(assumption 4). -/
def Obligations.ResetConstantsMeetParity : Prop :=
  State.reset.cfg.legal = true

/-! ### START -/

/-- A START outside a message whose length is a multiple of the unit opens a message: all its writes
together, ERR not written (40_start R81). -/
def Obligations.StartOpensMessage : Prop :=
  ∀ (s : State) (len seed : Word32),
    (s.phase = .idle ∨ s.phase = .done) →
    len.toNat % (if s.cfg.width = .w64 then 8 else 4) = 0 →
    exec (.start len seed) s = .next
      { s with
        h := (seed ^^^ len).setWidth 64
        nw := BitVec.ofNat 30 (len.toNat / (if s.cfg.width = .w64 then 8 else 4))
        idx := 0
        digest := 0
        phase := .absorb }

/-- A START outside a message whose length is no multiple of the unit, that is `len[2:0] != 0` in W64 and
`len[1:0] != 0` in W32, takes LENERR and writes nothing but PHASE and ERR (40_start R82). -/
def Obligations.StartBadLengthFaults : Prop :=
  ∀ (s : State) (len seed : Word32),
    (s.phase = .idle ∨ s.phase = .done) →
    ((s.cfg.width = .w64 ∧ len.extractLsb' 0 3 ≠ 0) ∨ (s.cfg.width = .w32 ∧ len.extractLsb' 0 2 ≠ 0)) →
    exec (.start len seed) s = .next { s with phase := .fault, err := .lenErr }

/-- A START while a message is open takes SEQ_START whatever its operands, a bad length included
(40_start R83). -/
def Obligations.StartDuringMessageFaults : Prop :=
  ∀ (s : State) (len seed : Word32),
    s.phase = .absorb →
    exec (.start len seed) s = .next { s with phase := .fault, err := .seqStart }

/-- What a START leaves in H, NW, IDX, DIGEST and PHASE depends on its operands and the configuration
alone, when it opens a message: nothing of an earlier message reaches the next (40_start R84 (f),
10_state R36). -/
def Obligations.StartForgetsHistory : Prop :=
  ∀ (s s' : State) (len seed : Word32),
    (s.phase = .idle ∨ s.phase = .done) → (s'.phase = .idle ∨ s'.phase = .done) →
    s.cfg = s'.cfg → lenLegal s.cfg.width len = true →
    ∃ t t' : State,
      exec (.start len seed) s = .next t ∧ exec (.start len seed) s' = .next t' ∧
      t.h = t'.h ∧ t.nw = t'.nw ∧ t.idx = t'.idx ∧ t.digest = t'.digest ∧ t.phase = t'.phase

/-- The word count is exact and within its bound: NW words of UNIT bytes are the `len` bytes, and NW is at
most `2^29 - 1` in W64 and `2^30 - 1` in W32 (10_state R22, 20_memory R46). -/
def Obligations.WordCountIsExact : Prop :=
  ∀ (s : State) (len seed : Word32),
    (s.phase = .idle ∨ s.phase = .done) → lenLegal s.cfg.width len = true →
    ∃ t : State, exec (.start len seed) s = .next t ∧
      t.nw.toNat * (if s.cfg.width = .w64 then 8 else 4) = len.toNat ∧
      t.nw.toNat ≤ (if s.cfg.width = .w64 then 2 ^ 29 - 1 else 2 ^ 30 - 1)

/-- The frame of START: the configuration and the pins never change, and ERR only when a fault is taken
(40_start R81, R82, R83). -/
def Obligations.StartFrame : Prop :=
  ∀ (s t : State) (len seed : Word32),
    exec (.start len seed) s = .next t →
    t.cfg = s.cfg ∧ t.pins = s.pins ∧
    (t.phase ≠ .fault → t.err = s.err) ∧
    (t.phase = .fault → t.h = s.h ∧ t.nw = s.nw ∧ t.idx = s.idx ∧ t.digest = s.digest)

/-! ### ABSORB -/

/-- The round of W64/FULL (41_absorb R96), with the position of the word (R93) and its constants (R94, R95):
a block word at `j = IDX mod 4` while a whole block holds it, else a tail word with countdown
`r = NW - IDX` (entry `r - 1` of the tail tables). That the countdown counts the current word is the spec's
own reading (R93, decision D12). -/
def Obligations.AbsorbRoundW64Full : Prop :=
  ∀ (s : State) (w : Word64),
    s.phase = .absorb → s.idx.toNat < s.nw.toNat → s.cfg.width = .w64 → s.cfg.profile = .full →
    (∀ j : Fin 4, s.idx.toNat < 4 * (s.nw.toNat / 4) → s.idx.toNat % 4 = j →
      exec (.absorb w) s = .next
        { s with
          h := (s.h ^^^ ((w ^^^ s.cfg.consts.k5[s.cfg.sel.kaB[j]]).rotateLeft 21 ^^^
            s.cfg.consts.k5[s.cfg.sel.kbB[j]])).rotateLeft 17 * (s.cfg.consts.m64fB[j]).setWidth 64
          idx := s.idx + 1 }) ∧
    (∀ n : Fin 3, 4 * (s.nw.toNat / 4) ≤ s.idx.toNat → s.nw.toNat - s.idx.toNat = (n : Nat) + 1 →
      exec (.absorb w) s = .next
        { s with
          h := (s.h ^^^ ((w ^^^ s.cfg.consts.k5[s.cfg.sel.kaT[n]]).rotateLeft 21 ^^^
            s.cfg.consts.k5[s.cfg.sel.kbT[n]])).rotateLeft 17 * (s.cfg.consts.m64fT[n]).setWidth 64
          idx := s.idx + 1 })

/-- The round of W64/OPT (41_absorb R97): `K3[IDX mod 3]`, then the next entry of the cycle; that the
second XOR is kept, with the next entry, is the spec's own reading (R97, decision D14). -/
def Obligations.AbsorbRoundW64Opt : Prop :=
  ∀ (s : State) (w : Word64) (a b : Fin 3),
    s.phase = .absorb → s.idx.toNat < s.nw.toNat → s.cfg.width = .w64 → s.cfg.profile = .opt →
    s.idx.toNat % 3 = a → (s.idx.toNat + 1) % 3 = b →
    exec (.absorb w) s = .next
      { s with
        h := (s.h ^^^ ((w ^^^ s.cfg.consts.k3[a]).rotateLeft 13 ^^^ s.cfg.consts.k3[b])).rotateLeft 9 *
          s.cfg.consts.m64o
        idx := s.idx + 1 }

/-- The round of W32/FULL (41_absorb R98): on `H[31:0]` and the low half of the payload, the upper half of
H written with zero. -/
def Obligations.AbsorbRoundW32Full : Prop :=
  ∀ (s : State) (hi w : Word32),
    s.phase = .absorb → s.idx.toNat < s.nw.toNat → s.cfg.width = .w32 → s.cfg.profile = .full →
    exec (.absorb (hi ++ w)) s = .next
      { s with
        h := (((s.h.extractLsb' 0 32 ^^^
          (w * s.cfg.consts.c1).rotateLeft 15 * s.cfg.consts.c2).rotateLeft 13) * 5 +
            s.cfg.consts.n32 : Word32).setWidth 64
        idx := s.idx + 1 }

/-- The round of W32/OPT (41_absorb R99): on `H[31:0]` and the low half of the payload, the upper half of H
written with zero; which rotation became 13 and which 7 is the spec's own reading (R99, "Respectively"). -/
def Obligations.AbsorbRoundW32Opt : Prop :=
  ∀ (s : State) (hi w : Word32),
    s.phase = .absorb → s.idx.toNat < s.nw.toNat → s.cfg.width = .w32 → s.cfg.profile = .opt →
    exec (.absorb (hi ++ w)) s = .next
      { s with
        h := (((s.h.extractLsb' 0 32 ^^^
          (w * s.cfg.consts.c1o).rotateLeft 13 * s.cfg.consts.c2o).rotateLeft 7) * 5 +
            s.cfg.consts.n32o : Word32).setWidth 64
        idx := s.idx + 1 }

/-- The legality of ABSORB (41_absorb R91): SEQ_ABSORB with no message open, OVERRUN when the message has
all its words, otherwise the round and IDX up by one, and ignored in FAULT. -/
def Obligations.AbsorbLegality : Prop :=
  ∀ (s : State) (w : Word64),
    ((s.phase = .idle ∨ s.phase = .done) →
      exec (.absorb w) s = .next { s with phase := .fault, err := .seqAbsorb }) ∧
    (s.phase = .absorb → s.idx = s.nw →
      exec (.absorb w) s = .next { s with phase := .fault, err := .overrun }) ∧
    (s.phase = .absorb → s.idx < s.nw →
      exec (.absorb w) s = .next
        { s with h := roundOf s.cfg s.nw.toNat s.idx.toNat s.h w, idx := s.idx + 1 }) ∧
    (s.phase = .fault → exec (.absorb w) s = .next s)

/-- The frame of ABSORB: NW, DIGEST, the configuration and the pins never change; without a fault neither
do PHASE and ERR; with one neither do H and IDX (41_absorb R91, R92). -/
def Obligations.AbsorbFrame : Prop :=
  ∀ (s t : State) (w : Word64),
    exec (.absorb w) s = .next t →
    t.nw = s.nw ∧ t.digest = s.digest ∧ t.cfg = s.cfg ∧ t.pins = s.pins ∧
    (t.phase ≠ .fault → t.phase = s.phase ∧ t.err = s.err) ∧
    (t.phase = .fault → t.h = s.h ∧ t.idx = s.idx)

/-- Ignored payload bits change nothing (30_encoding R66): the upper half of an ABSORB payload in W32, the
whole payload of a FINISH, and that of a reserved opcode (R65). -/
def Obligations.IgnoredBitsChangeNothing : Prop :=
  (∀ (s : State) (hi hi' w : Word32), s.cfg.width = .w32 →
    exec (.absorb (hi ++ w)) s = exec (.absorb (hi' ++ w)) s) ∧
  (∀ (s : State) (p p' : Word64), exec (.finish p) s = exec (.finish p') s) ∧
  (∀ (s : State) (c c' : Token), c.extractLsb' 64 4 = c'.extractLsb' 64 4 →
    (decode c).isCommand = false → exec (decode c) s = exec (decode c') s)

/-- The round is a bijection of the accumulator wherever the multiplier that acts on it is odd
(41_absorb R100): always in W64/FULL and in the 32-bit variants, where the accumulator is `H[31:0]`, and in
W64/OPT exactly when `M64O` is odd. -/
def Obligations.RoundPermutesAccumulator : Prop :=
  ∀ (c : Config) (nw idx : Nat) (w : Word64), c.legal = true →
    (c.width = .w64 → c.profile = .full → Function.Bijective fun h => roundOf c nw idx h w) ∧
    (c.width = .w64 → c.profile = .opt →
      ((Function.Bijective fun h => roundOf c nw idx h w) ↔ c.consts.m64o.getLsbD 0 = true)) ∧
    (c.width = .w32 → Function.Bijective fun h : Word32 => lo32 (roundOf c nw idx (zext64 h) w))

/-- The round is a bijection of the word for a fixed accumulator (41_absorb R100): always in W64/FULL, in
W64/OPT when `M64O` is odd, and in the 32-bit variants, where the word is `cmd[31:0]`, exactly when both
word multipliers are odd. -/
def Obligations.RoundPermutesWord : Prop :=
  ∀ (c : Config) (nw idx : Nat) (h : Word64), c.legal = true →
    (c.width = .w64 → c.profile = .full → Function.Bijective fun w => roundOf c nw idx h w) ∧
    (c.width = .w64 → c.profile = .opt → c.consts.m64o.getLsbD 0 = true →
      Function.Bijective fun w => roundOf c nw idx h w) ∧
    (c.width = .w32 → c.profile = .full →
      ((Function.Bijective fun w : Word32 => lo32 (roundOf c nw idx h (zext64 w))) ↔
        c.consts.c1.getLsbD 0 = true ∧ c.consts.c2.getLsbD 0 = true)) ∧
    (c.width = .w32 → c.profile = .opt →
      ((Function.Bijective fun w : Word32 => lo32 (roundOf c nw idx h (zext64 w))) ↔
        c.consts.c1o.getLsbD 0 = true ∧ c.consts.c2o.getLsbD 0 = true))

/-! ### FINISH -/

/-- FINISH of W64/FULL: the finalizer (42_finish R112), the fold (R116) and the writes (R118). -/
def Obligations.FinishW64Full : Prop :=
  ∀ (s : State) (p : Word64),
    s.phase = .absorb → s.idx = s.nw → s.cfg.width = .w64 → s.cfg.profile = .full →
    let h1 := s.h ^^^ (s.h >>> 29)
    let h2 := h1 * s.cfg.consts.f1
    let h3 := h2 ^^^ (h2 >>> 33)
    let h4 := h3 * s.cfg.consts.f2
    let hf := h4 ^^^ (h4 >>> 33)
    exec (.finish p) s = .next
      { s with h := hf, digest := hf.extractLsb' 0 32 ^^^ hf.extractLsb' 32 32, phase := .done }

/-- FINISH of W64/OPT: the finalizer (42_finish R113), the fold (R116) and the writes (R118); the order of
the steps is the spec's own reading (R113, decision D15), and so is the fold here (R116, D14). -/
def Obligations.FinishW64Opt : Prop :=
  ∀ (s : State) (p : Word64),
    s.phase = .absorb → s.idx = s.nw → s.cfg.width = .w64 → s.cfg.profile = .opt →
    let h1 := s.h ^^^ (s.h >>> 15)
    let h2 := h1 * s.cfg.consts.g1
    let h3 := h2 ^^^ (h2 >>> 15)
    let hf := h3 * s.cfg.consts.g2
    exec (.finish p) s = .next
      { s with h := hf, digest := hf.extractLsb' 0 32 ^^^ hf.extractLsb' 32 32, phase := .done }

/-- FINISH of both 32-bit variants: the finalizer (42_finish R114), no fold (R116), the writes (R118); that
there are two multiplications is the spec's own reading (R114, decision D16). -/
def Obligations.FinishW32 : Prop :=
  ∀ (s : State) (p : Word64),
    s.phase = .absorb → s.idx = s.nw → s.cfg.width = .w32 →
    let h0 := s.h.extractLsb' 0 32
    let h1 := h0 ^^^ (h0 >>> 16)
    let h2 := h1 * s.cfg.consts.p1
    let h3 := h2 ^^^ (h2 >>> 13)
    let h4 := h3 * s.cfg.consts.p2
    let hf := h4 ^^^ (h4 >>> 16)
    exec (.finish p) s = .next { s with h := hf.setWidth 64, digest := hf, phase := .done }

/-- The legality of FINISH (42_finish R110): SEQ_FINISH with no message open, UNDERRUN when words are
missing, otherwise H, DIGEST and PHASE are written, and ignored in FAULT. A token with `op = 0x3` is a
FINISH whatever its payload holds. -/
def Obligations.FinishLegality : Prop :=
  ∀ (s : State) (p : Word64),
    ((s.phase = .idle ∨ s.phase = .done) →
      exec (.finish p) s = .next { s with phase := .fault, err := .seqFinish }) ∧
    (s.phase = .absorb → s.idx < s.nw →
      exec (.finish p) s = .next { s with phase := .fault, err := .underrun }) ∧
    (s.phase = .absorb → s.idx = s.nw →
      exec (.finish p) s = .next
        { s with
          h := finalOf s.cfg s.h
          digest := digestOf s.cfg.width (finalOf s.cfg s.h)
          phase := .done }) ∧
    (s.phase = .fault → exec (.finish p) s = .next s) ∧
    (∀ c : Token, c.extractLsb' 64 4 = 3#4 → exec (decode c) s = exec (.finish p) s)

/-- The frame of FINISH: NW, IDX, the configuration and the pins never change; without a fault neither does
ERR; with one neither do H and DIGEST (42_finish R110, R118). -/
def Obligations.FinishFrame : Prop :=
  ∀ (s t : State) (p : Word64),
    exec (.finish p) s = .next t →
    t.nw = s.nw ∧ t.idx = s.idx ∧ t.cfg = s.cfg ∧ t.pins = s.pins ∧
    (t.phase ≠ .fault → t.err = s.err) ∧
    (t.phase = .fault → t.h = s.h ∧ t.digest = s.digest)

/-- An accumulator of zero has digest zero in every variant and for every constant set, and so has the empty
message with seed 0 (42_finish R119, which the spec marks as derived from R112 to R116 and R81). -/
def Obligations.ZeroAccumulatorGivesZeroDigest : Prop :=
  (∀ (s : State) (p : Word64), s.phase = .absorb → s.idx = s.nw → s.h = 0 →
    exec (.finish p) s = .next { s with h := 0, digest := 0, phase := .done }) ∧
  (∀ c : Config, messageDigest c 0 0 [] = 0)

/-- Each finalizer is a bijection of its width when its multipliers are odd (42_finish R120): always in
W64/FULL and in the 32-bit variants, in W64/OPT exactly when `G1` and `G2` are odd. -/
def Obligations.FinalizerIsBijective : Prop :=
  ∀ c : Config, c.legal = true →
    Function.Bijective (fin64F c) ∧ Function.Bijective (fin32 c) ∧
    (Function.Bijective (fin64O c) ↔
      c.consts.g1.getLsbD 0 = true ∧ c.consts.g2.getLsbD 0 = true)

/-! ### Reserved opcodes and faults -/

/-- Each of the thirteen reserved opcodes takes ILLCMD outside FAULT, whatever its payload, and so does every
token whose `op` is `0x0` or `0x4` to `0xF` (30_encoding R65); no other register is written
(60_exceptions R136). -/
def Obligations.ReservedOpcodesFault : Prop :=
  ∀ (s : State) (p : Word64), s.phase ≠ .fault →
    let t : State := { s with phase := .fault, err := .illCmd }
    exec (.reserved0 p) s = .next t ∧ exec (.reserved4 p) s = .next t ∧
    exec (.reserved5 p) s = .next t ∧ exec (.reserved6 p) s = .next t ∧
    exec (.reserved7 p) s = .next t ∧ exec (.reserved8 p) s = .next t ∧
    exec (.reserved9 p) s = .next t ∧ exec (.reservedA p) s = .next t ∧
    exec (.reservedB p) s = .next t ∧ exec (.reservedC p) s = .next t ∧
    exec (.reservedD p) s = .next t ∧ exec (.reservedE p) s = .next t ∧
    exec (.reservedF p) s = .next t ∧
    ∀ c : Token, (c.extractLsb' 64 4 = 0#4 ∨ 4#4 ≤ c.extractLsb' 64 4) → exec (decode c) s = .next t

/-- The phase by command table (60_exceptions R131, R132) in its order of priority (R134): where it names a
fault, the instruction takes exactly that fault. That an ABSORB with `IDX > NW`, where no run comes, takes
OVERRUN is the model's choice (assumption 5). -/
def Obligations.FaultTableIsTaken : Prop :=
  ∀ (i : Instr) (s : State) (e : ErrCode), faultOf i s = some e →
    exec i s = .next { s with phase := .fault, err := e }

/-- Where the table names no fault and the core is not in FAULT, the instruction takes none: ERR stays, and
the core is in ABSORB after START and ABSORB and in DONE after FINISH (60_exceptions R132). That a FINISH
with `IDX > NW`, where no run comes, ends in DONE is the model's choice (assumption 5): R132 writes
`ok if IDX = NW`. -/
def Obligations.LegalTokensNeverFault : Prop :=
  ∀ (i : Instr) (s : State), s.phase ≠ .fault → faultOf i s = none →
    ∃ t : State, exec i s = .next t ∧ t.err = s.err ∧
      t.phase = (match i with | .finish _ => Phase.done | _ => Phase.absorb)

/-- Fault entry is precise (60_exceptions R136): whatever instruction takes a fault, nothing but PHASE and
ERR is written, ERR gets the code of the fault, which is not NONE, and the ports show it: `fault_o` up,
`valid_o` down, the code at `err_o`, the old bits of DIGEST at `digest_o`. -/
def Obligations.FaultEntryIsPrecise : Prop :=
  ∀ (i : Instr) (s t : State), exec i s = .next t → s.phase ≠ .fault → t.phase = .fault →
    ∃ e : ErrCode, faultOf i s = some e ∧ e ≠ .none ∧ t = { s with phase := .fault, err := e } ∧
      (outputs t).faultO = true ∧ (outputs t).validO = false ∧ (outputs t).errO = errBits e ∧
      (outputs t).digestO = s.digest

/-- While PHASE is FAULT every token is ignored, and so no sequence of tokens leaves it or changes a
register: only a reset does (60_exceptions R138, R139). -/
def Obligations.FaultIgnoresAllTokens : Prop :=
  ∀ (s : State) (cs : List Token), s.phase = .fault →
    Sys2Proof.core.run cs.length { s with pins := cs.map presented } = .next { s with pins := [] }

/-- Every token has a transition in every state (30_encoding R61), and no run hangs: every step answers a next
state (70_reset_and_hazards R162). That a step with nothing at the pins does so, where the spec has no step
at all, is the model's choice (assumption 2). -/
def Obligations.NothingEverStops : Prop :=
  (∀ (c : Token) (s : State), ∃ t : State, exec (decode c) s = .next t) ∧
  (∀ s : State, ∃ t : State, step s = .next t)

/-! ### Whole-machine rules -/

/-- PHASE has the four encodings of 10_state R26 and changes only as it says: to ABSORB by START from IDLE
or DONE, to DONE by FINISH from ABSORB, to FAULT by a faulting token from the other three, to IDLE by
reset; no step makes another change. -/
def Obligations.PhaseTransitions : Prop :=
  (phaseBits .idle = 0 ∧ phaseBits .absorb = 1 ∧ phaseBits .done = 2 ∧ phaseBits .fault = 3) ∧
  (∀ (i : Instr) (s t : State), exec i s = .next t → t.phase ≠ s.phase →
    ((s.phase = .idle ∨ s.phase = .done) ∧ t.phase = .absorb ∧ ∃ len seed, i = .start len seed) ∨
    (s.phase = .absorb ∧ t.phase = .done ∧ ∃ p, i = .finish p) ∨
    (s.phase ≠ .fault ∧ t.phase = .fault ∧ faultOf i s = some t.err)) ∧
  (∀ s : State, (resetEvent s).phase = .idle ∧ (outputs s).phaseO = phaseBits s.phase) ∧
  (∀ s t : State, step s = .next t → t.phase = s.phase ∨ (s.phase, t.phase) ∈ phaseMoves)

/-- ERR has the codes of 10_state R27 and is written only by fault entry and by reset, which clears it. -/
def Obligations.ErrWrittenByFaultAlone : Prop :=
  (errBits .none = 0 ∧ errBits .illCmd = 1 ∧ errBits .lenErr = 2 ∧ errBits .seqStart = 3 ∧
    errBits .seqAbsorb = 4 ∧ errBits .overrun = 5 ∧ errBits .underrun = 6 ∧ errBits .seqFinish = 7) ∧
  (∀ (i : Instr) (s t : State), exec i s = .next t → t.err ≠ s.err →
    s.phase ≠ .fault ∧ t.phase = .fault) ∧
  (∀ s : State, (resetEvent s).err = .none ∧ (outputs s).errO = errBits s.err)

/-- The writers of the datapath and sequencing registers (10_state R21, R22, R23, R28, 30_encoding R62): NW
by START alone, IDX by START and ABSORB, DIGEST by START and FINISH, H by the three commands, none by a
reserved opcode. -/
def Obligations.RegisterWriters : Prop :=
  ∀ (i : Instr) (s t : State), exec i s = .next t →
    (t.nw ≠ s.nw → ∃ len seed, i = .start len seed) ∧
    (t.idx ≠ s.idx → (∃ len seed, i = .start len seed) ∨ ∃ w, i = .absorb w) ∧
    (t.digest ≠ s.digest → (∃ len seed, i = .start len seed) ∨ ∃ p, i = .finish p) ∧
    (t.h ≠ s.h → i.isCommand = true)

/-- No step changes the configuration, reset included, and so the port `cfg_o` never changes
(10_state R28, 70_reset_and_hazards R150). -/
def Obligations.ConfigurationNeverChanges : Prop :=
  ∀ s t : State, step s = .next t → t.cfg = s.cfg ∧ (outputs t).cfgO = (outputs s).cfgO

/-- Two status flags, both functions of PHASE (10_state R29): valid is set by a finishing FINISH, cleared by
an opening START, by a fault and by reset; fault is set by fault entry, where the table of faults names one,
and cleared only by reset. -/
def Obligations.StatusFlags : Prop :=
  (∀ s : State, (validFlag s = true ↔ s.phase = .done) ∧ (faultFlag s = true ↔ s.phase = .fault)) ∧
  (∀ (i : Instr) (s t : State), exec i s = .next t →
    (validFlag s = false → validFlag t = true → ∃ p, i = .finish p) ∧
    (validFlag s = true → validFlag t = false →
      (∃ len seed, i = .start len seed) ∨ faultFlag t = true) ∧
    (faultFlag s = false → faultFlag t = true → ∃ e : ErrCode, faultOf i s = some e) ∧
    (faultFlag s = true → faultFlag t = true)) ∧
  (∀ s : State, validFlag (resetEvent s) = false ∧ faultFlag (resetEvent s) = false ∧
    (outputs s).validO = validFlag s ∧ (outputs s).faultO = faultFlag s)

/-- Neither the flow of control nor any fault depends on the words or the seed (70_reset_and_hazards R160):
two states that agree on everything but H and DIGEST, and two instructions of one opcode that differ at most
in a word, a seed or an ignored payload, end in states that agree on PHASE, IDX, NW and ERR. -/
def Obligations.ControlIndependentOfData : Prop :=
  ∀ (i i' : Instr) (s s' t t' : State),
    i.opcode = i'.opcode →
    (∀ len len' seed seed', i = .start len seed → i' = .start len' seed' → len = len') →
    s.nw = s'.nw → s.idx = s'.idx → s.phase = s'.phase → s.err = s'.err → s.cfg = s'.cfg →
    exec i s = .next t → exec i' s' = .next t' →
    t.phase = t'.phase ∧ t.idx = t'.idx ∧ t.nw = t'.nw ∧ t.err = t'.err

/-! ### Invariants -/

/-- Every step keeps the invariants (a) to (f) of 10_state R36, in every state that has them. -/
def Obligations.StepKeepsStateInvariant : Prop :=
  ∀ s t : State, StateInv s → step s = .next t → StateInv t

/-- The reset state of every configuration has the invariants of 10_state R36. -/
def Obligations.ResetHasStateInvariant : Prop :=
  ∀ c : Config, StateInv (State.resetOf c)

/-- Every step keeps the bound on the word count: NW at most `2^29 - 1` in W64 and `2^30 - 1` in W32
(10_state R22). -/
def Obligations.StepKeepsWordCountBound : Prop :=
  ∀ s t : State, s.nw.toNat ≤ countBound s.cfg.width → step s = .next t →
    t.nw.toNat ≤ countBound t.cfg.width

/-! ### Operators, words and messages -/

/-- `rotl_N(a, r)` for every natural `r` (00_scope R13): bit `i` of the result is bit `i - r` of `a`, indices
taken modulo the width. -/
def Obligations.RotationMovesBits : Prop :=
  ∀ (n : Nat) (a : BitVec n) (r i : Nat), i < n →
    (rotl a r).getLsbD i = a.getLsbD ((i + (n - r % n)) % n)

/-- The shift-XOR step keeps the top `s` bits and XORs bit `i + s` into every lower bit `i`
(42_finish R115). -/
def Obligations.ShiftXorBits : Prop :=
  ∀ (n : Nat) (h : BitVec n) (s i : Nat), 0 < s → s < n → i < n →
    (n - s ≤ i → (xs h s).getLsbD i = h.getLsbD i) ∧
    (i < n - s → (xs h s).getLsbD i = (h.getLsbD i ^^ h.getLsbD (i + s)))

/-- The word of some bytes (20_memory R43): in LE the byte at the lowest offset is the least significant, in
BE the most. -/
def Obligations.WordIsSumOfBytes : Prop :=
  ∀ bs : List Byte, bs.length ≤ 8 →
    (wordOf .le bs).toNat = ∑ k : Fin bs.length, (bs[k]).toNat * 2 ^ (8 * (k : Nat)) ∧
    (wordOf .be bs).toNat =
      ∑ k : Fin bs.length, (bs[k]).toNat * 2 ^ (8 * (bs.length - 1 - (k : Nat)))

/-- Mixed widths (20_memory R43): a 64-bit word of eight bytes is the two 32-bit words of the same bytes,
the second above the first in LE and below it in BE. -/
def Obligations.WordsOfBothWidthsAgree : Prop :=
  ∀ a b : List Byte, a.length = 4 → b.length = 4 →
    wordOf .le (a ++ b) = lo32 (wordOf .le b) ++ lo32 (wordOf .le a) ∧
    wordOf .be (a ++ b) = lo32 (wordOf .be a) ++ lo32 (wordOf .be b)

/-- A message of a legal length whose bytes are all there has all its words, NW of them, word `i` from the
UNIT bytes at offset `UNIT * i`, and so a digest (20_memory R42, R46, 00_scope R18). -/
def Obligations.BufferHasItsWords : Prop :=
  ∀ (c : Config) (buf : List Byte) (len seed : Word32),
    lenLegal c.width len = true → len.toNat ≤ buf.length →
    ∃ words : List Word64,
      msgWords c buf len = some words ∧
      words.length = len.toNat / unit c.width ∧
      (∀ i : Nat, i < words.length →
        words[i]? = some (wordOf c.byteOrder ((buf.drop (unit c.width * i)).take (unit c.width)))) ∧
      digestFn c buf len seed = some (messageDigest c len seed words)

/-- `HASH` expands to START, the words of the listed bytes in order, and FINISH; the assembler rejects a list
whose length is no multiple of the unit (30_encoding R71). -/
def Obligations.HashExpansion : Prop :=
  ∀ (c : Config) (seed : Word32) (bytes : List Byte), bytes.length < 2 ^ 32 →
    (bytes.length % unit c.width = 0 →
      ∃ words : List Word64, msgWords c bytes (BitVec.ofNat 32 bytes.length) = some words ∧
        words.length = bytes.length / unit c.width ∧
        hashTokens c seed bytes = some
          (encode (.start (BitVec.ofNat 32 bytes.length) seed) ::
            (words.map (fun w => encode (.absorb w)) ++ [encode (.finish 0)]))) ∧
    (bytes.length % unit c.width ≠ 0 → hashTokens c seed bytes = none)

/-- The machine computes the digest function: from any state outside a message and outside FAULT, whatever
came before, the NW + 2 tokens of a message end in DONE with the digest of its words, no fault being taken
(00_scope R18, 70_reset_and_hazards R154, R162). -/
def Obligations.MessageRunGivesDigest : Prop :=
  ∀ (s : State) (len seed : Word32) (words : List Word64) (rest : List Pins),
    (s.phase = .idle ∨ s.phase = .done) → lenLegal s.cfg.width len = true →
    words.length = len.toNat / unit s.cfg.width →
    s.pins = (messageTokens len seed words).map presented ++ rest →
    ∃ t : State, Sys2Proof.core.run (words.length + 2) s = .next t ∧
      runResult t = .digest (messageDigest s.cfg len seed words) ∧
      t.err = s.err ∧ t.cfg = s.cfg ∧ t.pins = rest

/-- In the 32-bit variants, for fixed words, the seed determines the digest one to one (42_finish R120 with
41_absorb R100; 95_test_vectors L-g). -/
def Obligations.SeedDeterminesDigestInW32 : Prop :=
  ∀ (c : Config) (len : Word32) (words : List Word64), c.legal = true → c.width = .w32 →
    Function.Bijective fun seed => messageDigest c len seed words

/-! ### Outputs -/

/-- The output ports (10_state R34) and the bits of CFG (R28), in every state: `digest_o` is DIGEST, `valid_o`
and `fault_o` say whether PHASE is DONE or FAULT, `err_o` and `phase_o` are ERR and PHASE, `CFG[0]` is 1 in
W32 alone and `CFG[1]` in OPT alone; the ports depend on the registers and the configuration alone. After a
finishing FINISH `digest_o` carries the message's digest, marked valid; before the first START and from START
to FINISH it carries zero. -/
def Obligations.OutputPorts : Prop :=
  (∀ s : State,
    (outputs s).digestO = s.digest ∧
    ((outputs s).validO = true ↔ s.phase = .done) ∧
    ((outputs s).faultO = true ↔ s.phase = .fault) ∧
    (outputs s).errO = errBits s.err ∧ (outputs s).phaseO = phaseBits s.phase ∧
    ((outputs s).cfgO.getLsbD 0 = true ↔ s.cfg.width = .w32) ∧
    ((outputs s).cfgO.getLsbD 1 = true ↔ s.cfg.profile = .opt)) ∧
  (∀ s s' : State, s.toRegisters = s'.toRegisters → s.cfg = s'.cfg → outputs s = outputs s') ∧
  (∀ (s : State) (p : Word64), s.phase = .absorb → s.idx = s.nw →
    ∃ t : State, exec (.finish p) s = .next t ∧ (outputs t).validO = true ∧
      (outputs t).digestO = digestOf s.cfg.width (finalOf s.cfg s.h)) ∧
  (∀ s : State, StateInv s → (s.phase = .idle ∨ s.phase = .absorb) → (outputs s).digestO = 0)
end

