-- ==== Sys2Proof/Laws/Encoding.lean ====
section
/-!
SUPPORT. The fields of an encoded instruction (30_encoding R60, R62).
-/

namespace Sys2Proof

/-- A token's opcode stands in `cmd[67:64]`. -/
theorem opField_append (op : BitVec 4) (p : Word64) : opField (op ++ p) = op := by
  apply BitVec.eq_of_getLsbD_eq
  intro i hi
  simp only [opField, BitVec.getLsbD_extractLsb', BitVec.getLsbD_append]
  simp [hi]

/-- A token's payload stands in `cmd[63:0]`. -/
theorem payloadField_append (op : BitVec 4) (p : Word64) : payloadField (op ++ p) = p := by
  apply BitVec.eq_of_getLsbD_eq
  intro i hi
  simp only [payloadField, BitVec.getLsbD_extractLsb', BitVec.getLsbD_append]
  simp [hi]

/-- `len` stands in the upper half of the payload (30_encoding R62). -/
theorem lenField_append (op : BitVec 4) (len seed : Word32) :
    lenField (op ++ (len ++ seed : Word64)) = len := by
  apply BitVec.eq_of_getLsbD_eq
  intro i hi
  have h1 : 32 + i < 64 := by omega
  simp only [lenField, BitVec.getLsbD_extractLsb', BitVec.getLsbD_append]
  simp [hi, h1]

/-- `seed` stands in the lower half of the payload (30_encoding R62). -/
theorem seedField_append (op : BitVec 4) (len seed : Word32) :
    seedField (op ++ (len ++ seed : Word64)) = seed := by
  apply BitVec.eq_of_getLsbD_eq
  intro i hi
  have h1 : i < 64 := by omega
  simp only [seedField, BitVec.getLsbD_extractLsb', BitVec.getLsbD_append]
  simp [hi, h1]

end Sys2Proof
end

