-- ==== Sys2Proof/Laws/State.lean ====
section
/-!
SUPPORT. One lemma per field per update of State, each true by definition, so that no proof unfolds a
record update. A field of the registers of a State is read through `toRegisters`, for which each update of a
State has one lemma.
-/

namespace Sys2Proof.Machine

@[simp] theorem reset_h : Registers.reset.h = 0 := rfl
@[simp] theorem reset_nw : Registers.reset.nw = 0 := rfl
@[simp] theorem reset_idx : Registers.reset.idx = 0 := rfl
@[simp] theorem reset_phase : Registers.reset.phase = .idle := rfl
@[simp] theorem reset_err : Registers.reset.err = .none := rfl
@[simp] theorem reset_digest : Registers.reset.digest = 0 := rfl

@[simp] theorem onRegisters_toRegisters (f : Config → Registers → Registers) (s : State) :
    (s.onRegisters f).toRegisters = f s.cfg s.toRegisters := rfl
@[simp] theorem onRegisters_cfg (f : Config → Registers → Registers) (s : State) :
    (s.onRegisters f).cfg = s.cfg := rfl
@[simp] theorem onRegisters_pins (f : Config → Registers → Registers) (s : State) :
    (s.onRegisters f).pins = s.pins := rfl

@[simp] theorem raise_h (e : ErrCode) (r : Registers) : (raise e r).h = r.h := rfl
@[simp] theorem raise_nw (e : ErrCode) (r : Registers) : (raise e r).nw = r.nw := rfl
@[simp] theorem raise_idx (e : ErrCode) (r : Registers) : (raise e r).idx = r.idx := rfl
@[simp] theorem raise_phase (e : ErrCode) (r : Registers) : (raise e r).phase = .fault := rfl
@[simp] theorem raise_err (e : ErrCode) (r : Registers) : (raise e r).err = e := rfl
@[simp] theorem raise_digest (e : ErrCode) (r : Registers) : (raise e r).digest = r.digest := rfl

@[simp] theorem resetEvent_toRegisters (s : State) : (resetEvent s).toRegisters = Registers.reset := rfl
@[simp] theorem resetEvent_cfg (s : State) : (resetEvent s).cfg = s.cfg := rfl
@[simp] theorem resetEvent_pins (s : State) : (resetEvent s).pins = s.pins := rfl

@[simp] theorem openMessage_h (h : Word64) (nw : Count) (r : Registers) : (openMessage h nw r).h = h := rfl
@[simp] theorem openMessage_nw (h : Word64) (nw : Count) (r : Registers) : (openMessage h nw r).nw = nw := rfl
@[simp] theorem openMessage_idx (h : Word64) (nw : Count) (r : Registers) : (openMessage h nw r).idx = 0 := rfl
@[simp] theorem openMessage_phase (h : Word64) (nw : Count) (r : Registers) : (openMessage h nw r).phase = .absorb := rfl
@[simp] theorem openMessage_err (h : Word64) (nw : Count) (r : Registers) : (openMessage h nw r).err = r.err := rfl
@[simp] theorem openMessage_digest (h : Word64) (nw : Count) (r : Registers) : (openMessage h nw r).digest = 0 := rfl

@[simp] theorem takeWord_h (h : Word64) (r : Registers) : (takeWord h r).h = h := rfl
@[simp] theorem takeWord_nw (h : Word64) (r : Registers) : (takeWord h r).nw = r.nw := rfl
@[simp] theorem takeWord_idx (h : Word64) (r : Registers) : (takeWord h r).idx = r.idx + 1 := rfl
@[simp] theorem takeWord_phase (h : Word64) (r : Registers) : (takeWord h r).phase = r.phase := rfl
@[simp] theorem takeWord_err (h : Word64) (r : Registers) : (takeWord h r).err = r.err := rfl
@[simp] theorem takeWord_digest (h : Word64) (r : Registers) : (takeWord h r).digest = r.digest := rfl

@[simp] theorem closeMessage_h (h : Word64) (d : Word32) (r : Registers) : (closeMessage h d r).h = h := rfl
@[simp] theorem closeMessage_nw (h : Word64) (d : Word32) (r : Registers) : (closeMessage h d r).nw = r.nw := rfl
@[simp] theorem closeMessage_idx (h : Word64) (d : Word32) (r : Registers) : (closeMessage h d r).idx = r.idx := rfl
@[simp] theorem closeMessage_phase (h : Word64) (d : Word32) (r : Registers) : (closeMessage h d r).phase = .done := rfl
@[simp] theorem closeMessage_err (h : Word64) (d : Word32) (r : Registers) : (closeMessage h d r).err = r.err := rfl
@[simp] theorem closeMessage_digest (h : Word64) (d : Word32) (r : Registers) : (closeMessage h d r).digest = d := rfl

@[simp] theorem resetOf_toRegisters (c : Config) : (State.resetOf c).toRegisters = Registers.reset := rfl
@[simp] theorem resetOf_cfg (c : Config) : (State.resetOf c).cfg = c := rfl
@[simp] theorem resetOf_pins (c : Config) : (State.resetOf c).pins = [] := rfl

@[simp] theorem withFetchWord_toRegisters (s : State) (n w : Nat) : (s.withFetchWord n w).toRegisters = s.toRegisters := rfl
@[simp] theorem withFetchWord_cfg (s : State) (n w : Nat) : (s.withFetchWord n w).cfg = s.cfg := rfl
@[simp] theorem withFetchWord_pins (s : State) (n w : Nat) :
    (s.withFetchWord n w).pins = presented (BitVec.ofNat 68 (w % 2 ^ n)) :: s.pins := rfl

@[simp] theorem withEvents_toRegisters (s : State) (es : List HostEvent) : (s.withEvents es).toRegisters = s.toRegisters := rfl
@[simp] theorem withEvents_cfg (s : State) (es : List HostEvent) : (s.withEvents es).cfg = s.cfg := rfl
@[simp] theorem withEvents_pins (s : State) (es : List HostEvent) :
    (s.withEvents es).pins = es.map pinsOf := rfl

end Sys2Proof.Machine
end

