-- ==== Sys2Proof/Laws/Ops.lean ====
section
/-!
SUPPORT. What each shared operation can do, said once.
-/

namespace Sys2Proof.Machine

/-- In FAULT a token is ignored (60_exceptions R138). -/
theorem unlessFaulted_of_fault {f : Registers → Registers} {r : Registers} (h : r.phase = .fault) :
    unlessFaulted f r = r := by
  simp [unlessFaulted, h]

/-- Outside FAULT a token has its own transition. -/
theorem unlessFaulted_of_live {f : Registers → Registers} {r : Registers} (h : r.phase ≠ .fault) :
    unlessFaulted f r = f r := by
  unfold unlessFaulted
  split
  · contradiction
  · rfl

/-- Everything `unlessFaulted` can answer. -/
theorem unlessFaulted_cases (f : Registers → Registers) (r : Registers) :
    (r.phase = .fault ∧ unlessFaulted f r = r) ∨ (r.phase ≠ .fault ∧ unlessFaulted f r = f r) := by
  by_cases h : r.phase = .fault
  · exact .inl ⟨h, unlessFaulted_of_fault h⟩
  · exact .inr ⟨h, unlessFaulted_of_live h⟩

/-- A reset at the pins is a reset event, whatever else they show (60_exceptions R135). -/
theorem eventOf_of_rst {p : Pins} (h : p.rst = true) : eventOf p = some .reset := by
  simp [eventOf, h]

/-- A token is accepted when it is valid, the core ready and no reset asserted (10_state R35). -/
theorem eventOf_of_accepted {p : Pins} (h : accepted p = true) : eventOf p = some (.token p.cmd) := by
  have hr : p.rst = false := by
    simp only [accepted, Bool.and_eq_true, Bool.not_eq_true'] at h
    exact h.2
  simp [eventOf, h, hr]

/-- Without a reset and without an accepted token nothing happens (10_state R35). -/
theorem eventOf_of_idle {p : Pins} (hr : p.rst = false) (h : accepted p = false) : eventOf p = none := by
  simp [eventOf, h, hr]

@[simp] theorem eventOf_pinsOf (e : HostEvent) : eventOf (pinsOf e) = some e := by
  cases e <;> rfl

/-- The oldest sample is what the core takes next. -/
theorem nextEvent_cons {s : State} {p : Pins} {rest : List Pins} (h : s.pins = p :: rest) :
    nextEvent s = (eventOf p, { s with pins := rest }) := by
  simp [nextEvent, h]

/-- With nothing to come there is no event. -/
theorem nextEvent_nil {s : State} (h : s.pins = []) : nextEvent s = (none, s) := by
  simp [nextEvent, h]

end Sys2Proof.Machine
end

