-- ==== Sys2Proof/Laws/Meanings.lean ====
section
/-!
SUPPORT. What the transition of each command can do outside FAULT, said once: the inversion lemmas that
claims about a command cite instead of unfolding it.
-/

namespace Sys2Proof.Machine

/-- Everything START can do outside FAULT (40_start R80). -/
theorem startLive_cases (len seed : Word32) (c : Config) (r : Registers) :
    (r.phase = .absorb ∧ startLive len seed c r = raise .seqStart r) ∨
    (r.phase ≠ .absorb ∧ lenLegal c.width len = false ∧ startLive len seed c r = raise .lenErr r) ∨
    (r.phase ≠ .absorb ∧ lenLegal c.width len = true ∧
      startLive len seed c r =
        openMessage (zext64 (seed ^^^ len)) (wordCount c.width len) r) := by
  unfold startLive
  split
  · rename_i h
    exact .inl ⟨h, rfl⟩
  · rename_i h
    by_cases hl : lenLegal c.width len = true
    · exact .inr (.inr ⟨h, hl, by simp [hl]⟩)
    · exact .inr (.inl ⟨h, by simpa using hl, by simp [hl]⟩)

/-- Everything ABSORB can do outside FAULT (41_absorb R91). -/
theorem absorbLive_cases (p : Word64) (c : Config) (r : Registers) :
    (r.phase ≠ .absorb ∧ absorbLive p c r = raise .seqAbsorb r) ∨
    (r.phase = .absorb ∧ ¬ r.idx < r.nw ∧ absorbLive p c r = raise .overrun r) ∨
    (r.phase = .absorb ∧ r.idx < r.nw ∧
      absorbLive p c r = takeWord (roundOf c r.nw.toNat r.idx.toNat r.h p) r) := by
  unfold absorbLive
  split
  · rename_i h
    by_cases hl : r.idx < r.nw
    · exact .inr (.inr ⟨h, hl, by simp [hl]⟩)
    · exact .inr (.inl ⟨h, hl, by simp [hl]⟩)
  · rename_i h
    exact .inl ⟨h, rfl⟩

/-- Everything FINISH can do outside FAULT (42_finish R110). -/
theorem finishLive_cases (c : Config) (r : Registers) :
    (r.phase ≠ .absorb ∧ finishLive c r = raise .seqFinish r) ∨
    (r.phase = .absorb ∧ r.idx < r.nw ∧ finishLive c r = raise .underrun r) ∨
    (r.phase = .absorb ∧ ¬ r.idx < r.nw ∧
      finishLive c r =
        closeMessage (finalOf c r.h) (digestOf c.width (finalOf c r.h)) r) := by
  unfold finishLive
  split
  · rename_i h
    by_cases hl : r.idx < r.nw
    · exact .inr (.inl ⟨h, hl, by simp [hl]⟩)
    · exact .inr (.inr ⟨h, hl, by simp [hl]⟩)
  · rename_i h
    exact .inl ⟨h, rfl⟩

/-- `position` gives the block position of a block word (41_absorb R93). -/
theorem position_block {nw idx : Nat} (h : idx < 4 * (nw / 4)) :
    position nw idx = .block ⟨idx % 4, by omega⟩ := by
  simp [position, h]

/-- `position` gives the countdown of a tail word (41_absorb R93): it is 1, 2 or 3, so the residue that
bounds it in `position` changes nothing. -/
theorem position_tail {nw idx : Nat} (h : ¬ idx < 4 * (nw / 4)) (hi : idx < nw) :
    ∃ n : Fin 3, position nw idx = .tail n ∧ (n : Nat) + 1 = nw - idx := by
  refine ⟨⟨(nw - idx - 1) % 3, by omega⟩, by simp [position, h], ?_⟩
  show (nw - idx - 1) % 3 + 1 = nw - idx
  omega

end Sys2Proof.Machine
end

