-- ==== Sys2Proof/Laws/PerInstr.lean ====
section
/-!
SUPPORT. Statements made per instruction. `EncodeFields`: the token of a well-formed instruction has the
instruction's opcode in `cmd[67:64]` and its payload in `cmd[63:0]` (30_encoding R60, R62).
-/

namespace Sys2Proof.Laws.EncodeFields

def Statement (i : Instr) : Prop :=
  i.wellFormed = true → opField (encode i) = i.opcode ∧ payloadField (encode i) = i.payload

theorem start (len seed : Word32) : Statement (.start len seed) :=
  fun _ => ⟨opField_append _ _, payloadField_append _ _⟩

theorem absorb (payload : Word64) : Statement (.absorb payload) :=
  fun _ => ⟨opField_append _ _, payloadField_append _ _⟩

theorem finish (payload : Word64) : Statement (.finish payload) :=
  fun _ => ⟨opField_append _ _, payloadField_append _ _⟩

theorem reserved0 (payload : Word64) : Statement (.reserved0 payload) :=
  fun _ => ⟨opField_append _ _, payloadField_append _ _⟩

theorem reserved4 (payload : Word64) : Statement (.reserved4 payload) :=
  fun _ => ⟨opField_append _ _, payloadField_append _ _⟩

theorem reserved5 (payload : Word64) : Statement (.reserved5 payload) :=
  fun _ => ⟨opField_append _ _, payloadField_append _ _⟩

theorem reserved6 (payload : Word64) : Statement (.reserved6 payload) :=
  fun _ => ⟨opField_append _ _, payloadField_append _ _⟩

theorem reserved7 (payload : Word64) : Statement (.reserved7 payload) :=
  fun _ => ⟨opField_append _ _, payloadField_append _ _⟩

theorem reserved8 (payload : Word64) : Statement (.reserved8 payload) :=
  fun _ => ⟨opField_append _ _, payloadField_append _ _⟩

theorem reserved9 (payload : Word64) : Statement (.reserved9 payload) :=
  fun _ => ⟨opField_append _ _, payloadField_append _ _⟩

theorem reservedA (payload : Word64) : Statement (.reservedA payload) :=
  fun _ => ⟨opField_append _ _, payloadField_append _ _⟩

theorem reservedB (payload : Word64) : Statement (.reservedB payload) :=
  fun _ => ⟨opField_append _ _, payloadField_append _ _⟩

theorem reservedC (payload : Word64) : Statement (.reservedC payload) :=
  fun _ => ⟨opField_append _ _, payloadField_append _ _⟩

theorem reservedD (payload : Word64) : Statement (.reservedD payload) :=
  fun _ => ⟨opField_append _ _, payloadField_append _ _⟩

theorem reservedE (payload : Word64) : Statement (.reservedE payload) :=
  fun _ => ⟨opField_append _ _, payloadField_append _ _⟩

theorem reservedF (payload : Word64) : Statement (.reservedF payload) :=
  fun _ => ⟨opField_append _ _, payloadField_append _ _⟩

end Sys2Proof.Laws.EncodeFields
end

