-- ==== Sys2Proof/Laws/Step.lean ====
section
/-!
SUPPORT. What one step does, and how runs unfold into steps.
-/

namespace Sys2Proof.Machine

/-- Every instruction is the transition of its token behind the host's interface: it answers a next state in
which the registers are what the transition gives, and the configuration and the pins are as before
(10_state R38). -/
theorem exec_eq (i : Instr) (s : State) : exec i s = .next (s.onRegisters (tokenTransition i)) := by
  cases i <;> rfl

/-- A run of no steps ends where it is. -/
theorem run_zero (s : State) : Sys2Proof.core.run 0 s = .next s := rfl

/-- A run goes on from the state its first step answers. -/
theorem run_of_step {s t : State} (n : Nat) (h : step s = .next t) :
    Sys2Proof.core.run (n + 1) s = Sys2Proof.core.run n t := by
  have hc : Sys2Proof.core.step s = .next t := h
  simp only [Host.Core.run, hc]

/-- The step at an accepted token (00_scope R17). -/
theorem step_of_token {s : State} {p : Pins} {rest : List Pins} (hp : s.pins = p :: rest)
    (ha : accepted p = true) : step s = exec (decode p.cmd) { s with pins := rest } := by
  simp only [step, nextEvent_cons hp, eventOf_of_accepted ha]

/-- The step at a reset (60_exceptions R135). -/
theorem step_of_reset {s : State} {p : Pins} {rest : List Pins} (hp : s.pins = p :: rest)
    (hr : p.rst = true) : step s = .next (resetEvent { s with pins := rest }) := by
  simp only [step, nextEvent_cons hp, eventOf_of_rst hr]

/-- The step at a sample that causes nothing (10_state R35). -/
theorem step_of_idle {s : State} {p : Pins} {rest : List Pins} (hp : s.pins = p :: rest)
    (hr : p.rst = false) (ha : accepted p = false) : step s = .next { s with pins := rest } := by
  simp only [step, nextEvent_cons hp, eventOf_of_idle hr ha]

/-- The step when nothing is presented any more (assumption 2). -/
theorem step_of_nil {s : State} (hp : s.pins = []) : step s = .next s := by
  simp only [step, nextEvent_nil hp]

end Sys2Proof.Machine
end

