-- ==== Sys2Proof/Tests/Slice0.lean ====
section
/-!
SUPPORT. The model's own tests. Expected values come from the spec: its worked examples in the rules and the
vectors of 95_test_vectors, whose two constant sets are test data and not the hardware's (D26). The witnesses
at the end show, for each obligation with hypotheses, operands and a state that meet them all.
-/

namespace Sys2Proof.Tests

open Sys2Proof Sys2Proof.Machine

/-- `CFG_UNITY` of 95_test_vectors section 0. -/
def unity : Constants where
  k5 := #v[0, 0, 0, 0, 0]
  m64fB := #v[1, 1, 1, 1]
  m64fT := #v[1, 1, 1]
  f1 := 1
  f2 := 1
  k3 := #v[0, 0, 0]
  m64o := 1
  g1 := 1
  g2 := 1
  c1 := 1
  c2 := 1
  n32 := 0
  c1o := 1
  c2o := 1
  n32o := 0
  p1 := 1
  p2 := 1

/-- `CFG_TEST` of 95_test_vectors section 0. -/
def mixed : Constants where
  k5 := #v[0x87c37b91114253d5, 0x4cf5ad432745937f, 0xff51afd7ed558ccd, 0xc4ceb9fe1a85ec53, 0x9e3779b97f4a7c15]
  m64fB := #v[0x9e3779b1, 0x85ebca6b, 0xc2b2ae35, 0x27d4eb2f]
  m64fT := #v[0x165667b1, 0xcc9e2d51, 0x1b873593]
  f1 := 0xff51afd7ed558ccd
  f2 := 0xc4ceb9fe1a85ec53
  k3 := #v[0x87c37b91114253d5, 0x4cf5ad432745937f, 0xff51afd7ed558ccd]
  m64o := 0x2545f4914f6cdd1d
  g1 := 0xbf58476d1ce4e5b9
  g2 := 0x94d049bb133111eb
  c1 := 0xcc9e2d51
  c2 := 0x1b873593
  n32 := 0xe6546b64
  c1o := 0xcc9e2d51
  c2o := 0x1b873593
  n32o := 0xe6546b64
  p1 := 0x85ebca6b
  p2 := 0xc2b2ae35

/-- A configuration of a variant with a constant set and the spec's own byte order and tables. -/
def conf (w : Width) (p : Profile) (k : Constants) : Config := ⟨w, p, .le, Selection.standard, k⟩

/-- A state in a phase, with a word count, an index and an accumulator. -/
def at_ (c : Config) (ph : Phase) (nw idx : Count) (h : Word64) : State :=
  { State.resetOf c with phase := ph, nw := nw, idx := idx, h := h }

/-- One register of the next state, when there is one. -/
def after {α : Type} (f : State → α) : Host.Outcome State Fault Refusal → Option α
  | .next t => some (f t)
  | .fault _ => none
  | .refused _ => none

/-- The control registers of a state. -/
structure Control where
  nw : Nat
  idx : Nat
  phase : Phase
  err : ErrCode
  deriving DecidableEq, Repr

/-- The control registers of a state: NW, IDX, PHASE, ERR. -/
def control (s : State) : Control := ⟨s.nw.toNat, s.idx.toNat, s.phase, s.err⟩

/-! ### Well-formedness -/

/-- Parity (10_state R30 to R32): both test sets are legal, and an even constant in each constrained place
is refused. -/
theorem test_parity_smoke :
    unity.legal = true ∧ mixed.legal = true ∧
    Constants.legal { unity with m64fB := #v[1, 1, 2, 1] } = false ∧
    Constants.legal { unity with m64fT := #v[1, 1, 0] } = false ∧
    Constants.legal { unity with f1 := 2 } = false ∧
    Constants.legal { unity with f2 := 2 } = false ∧
    Constants.legal { unity with c1 := 2 } = false ∧
    Constants.legal { unity with c1o := 2 } = false ∧
    Constants.legal { unity with p1 := 2 } = false ∧
    Constants.legal { unity with p2 := 2 } = false ∧
    Config.legal (conf .w64 .full { unity with p2 := 2 }) = false := by decide

/-- What the assembler emits (30_encoding R69): ignored bits are zero, and no reserved opcode. Every
instruction, these included, is well formed (R61). -/
theorem test_canonical_smoke :
    Instr.canonical .w32 (.absorb 0xffffffff) = true ∧
    Instr.canonical .w32 (.absorb 0x100000000) = false ∧
    Instr.canonical .w64 (.absorb 0x100000000) = true ∧
    Instr.canonical .w64 (.finish 0) = true ∧
    Instr.canonical .w64 (.finish 1) = false ∧
    Instr.canonical .w64 (.reserved0 0) = false ∧
    Instr.wellFormed (.finish 1) = true := by decide

/-- A number that does not fit a token is refused; the host's numbering reaches the decoder. -/
theorem test_table_word :
    decodeTableWord 68 0x10000000812345678 = some (.start 8 0x12345678) ∧
    decodeTableWord 72 0x30000000000000000 = some (.finish 0) ∧
    decodeTableWord 72 0x100000000000000000 = none := by decide

/-! ### Decoding, one token per row of the opcode table, written from 30_encoding R62 and R64 -/

theorem test_decode_start : decode 0x10000001812345678#68 = .start 0x18 0x12345678 := by decide
theorem test_decode_absorb : decode 0x20706050403020100#68 = .absorb 0x0706050403020100 := by decide
theorem test_decode_finish : decode 0x30000000000000000#68 = .finish 0 := by decide
theorem test_decode_reserved0 : decode 0x0000000000000007b#68 = .reserved0 0x7b := by decide
theorem test_decode_reserved4 : decode 0x4000000000000007b#68 = .reserved4 0x7b := by decide
theorem test_decode_reserved5 : decode 0x5000000000000007b#68 = .reserved5 0x7b := by decide
theorem test_decode_reserved6 : decode 0x6000000000000007b#68 = .reserved6 0x7b := by decide
theorem test_decode_reserved7 : decode 0x7000000000000007b#68 = .reserved7 0x7b := by decide
theorem test_decode_reserved8 : decode 0x8000000000000007b#68 = .reserved8 0x7b := by decide
theorem test_decode_reserved9 : decode 0x9000000000000007b#68 = .reserved9 0x7b := by decide
theorem test_decode_reservedA : decode 0xa000000000000007b#68 = .reservedA 0x7b := by decide
theorem test_decode_reservedB : decode 0xb000000000000007b#68 = .reservedB 0x7b := by decide
theorem test_decode_reservedC : decode 0xc000000000000007b#68 = .reservedC 0x7b := by decide
theorem test_decode_reservedD : decode 0xd000000000000007b#68 = .reservedD 0x7b := by decide
theorem test_decode_reservedE : decode 0xe000000000000007b#68 = .reservedE 0x7b := by decide
theorem test_decode_reservedF : decode 0xf000000000000007b#68 = .reservedF 0x7b := by decide

/-! ### START (40_start R85, 95_test_vectors 2.1) -/

/-- `START 0x18, 0x12345678` from reset, on both widths, and the largest lengths. -/
theorem test_start_opens :
    after (fun t => (t.h, control t)) (exec (.start 0x18 0x12345678) (State.resetOf (conf .w64 .opt unity))) =
      some (0x12345660, ⟨3, 0, .absorb, .none⟩) ∧
    after (fun t => (t.h, control t)) (exec (.start 0x18 0x12345678) (State.resetOf (conf .w32 .opt unity))) =
      some (0x12345660, ⟨6, 0, .absorb, .none⟩) ∧
    after (fun t => (t.h, control t))
        (exec (.start 0xfffffff8 0xfffffff8) (State.resetOf (conf .w64 .full unity))) =
      some (0, ⟨0x1fffffff, 0, .absorb, .none⟩) ∧
    after (fun t => (t.h, control t)) (exec (.start 0xfffffffc 0) (State.resetOf (conf .w32 .full unity))) =
      some (0xfffffffc, ⟨0x3fffffff, 0, .absorb, .none⟩) := by decide

/-- The length fault, on W64 where W32 runs the same token, and SEQ_START before it. -/
theorem test_start_faults :
    after control (exec (.start 0x14 0) (State.resetOf (conf .w64 .full unity))) =
      some ⟨0, 0, .fault, .lenErr⟩ ∧
    after control (exec (.start 0x14 0) (State.resetOf (conf .w32 .full unity))) =
      some ⟨5, 0, .absorb, .none⟩ ∧
    after control (exec (.start 7 0) (at_ (conf .w32 .opt unity) .absorb 1 0 4)) =
      some ⟨1, 0, .fault, .seqStart⟩ := by decide

/-! ### ABSORB (95_test_vectors 2.2) -/

/-- One round of each variant; two positions of W64/FULL and the wrap of K3 in W64/OPT. -/
theorem test_absorb_rounds :
    after (fun t => t.h) (exec (.absorb 0x0123456789abcdef) (at_ (conf .w64 .full mixed) .absorb 4 0 0x12345660)) =
      some 0xa645387440ad7e3d ∧
    after (fun t => t.h) (exec (.absorb 0x0123456789abcdef) (at_ (conf .w64 .full mixed) .absorb 3 0 0x12345660)) =
      some 0x22d29584c4b505be ∧
    after (fun t => t.h) (exec (.absorb 0x8000000000000001) (at_ (conf .w64 .full mixed) .absorb 5 4 1)) =
      some 0x32b48112e3933d4a ∧
    after (fun t => t.h) (exec (.absorb 0x8000000000000001) (at_ (conf .w64 .opt mixed) .absorb 3 2 1)) =
      some 0x89bf0436d6558854 ∧
    after (fun t => t.h) (exec (.absorb 0xdeadbeef) (at_ (conf .w32 .full mixed) .absorb 1 0 0x12345660)) =
      some 0xbfbc10ce ∧
    after (fun t => t.h) (exec (.absorb 0xffffffffdeadbeef) (at_ (conf .w32 .opt mixed) .absorb 1 0 0x12345660)) =
      some 0xb678fcdd := by decide

/-- SEQ_ABSORB, OVERRUN and the index after a legal word (95_test_vectors 2.4). -/
theorem test_absorb_control :
    after control (exec (.absorb 1) (State.resetOf (conf .w32 .opt unity))) = some ⟨0, 0, .fault, .seqAbsorb⟩ ∧
    after control (exec (.absorb 0) (at_ (conf .w32 .opt unity) .absorb 1 1 0xa00)) =
      some ⟨1, 1, .fault, .overrun⟩ ∧
    after control (exec (.absorb 0xffffffff00000000) (at_ (conf .w32 .opt unity) .absorb 1 0 4)) =
      some ⟨1, 1, .absorb, .none⟩ := by decide

/-- The position table of 41_absorb R102: a tail word of countdown `r` stands as `.tail (r - 1)`. -/
theorem test_position_table :
    (List.range 1).map (position 1) = [.tail 0] ∧
    (List.range 3).map (position 3) = [.tail 2, .tail 1, .tail 0] ∧
    (List.range 6).map (position 6) = [.block 0, .block 1, .block 2, .block 3, .tail 1, .tail 0] ∧
    (List.range 9).map (position 9) =
      [.block 0, .block 1, .block 2, .block 3, .block 0, .block 1, .block 2, .block 3, .tail 0] := by decide

/-! ### FINISH (95_test_vectors 2.3, 2.4) -/

/-- One finalizer of each form, with its digest. -/
theorem test_finish_digests :
    after (fun t => (t.h, t.digest, t.phase))
        (exec (.finish 0) (at_ (conf .w64 .full mixed) .absorb 6 6 0x97aa67b40fb4eb63)) =
      some (0xf035aaabd95b91e9, 0x296e3b42, .done) ∧
    after (fun t => t.digest) (exec (.finish 5) (at_ (conf .w64 .opt mixed) .absorb 0 0 1)) = some 0x590db99f ∧
    after (fun t => (t.h, t.digest)) (exec (.finish 0) (at_ (conf .w32 .full mixed) .absorb 2 2 0x7fe14548)) =
      some (0xcf6a92ab, 0xcf6a92ab) := by decide

/-- UNDERRUN, and SEQ_FINISH from IDLE. -/
theorem test_finish_faults :
    after control (exec (.finish 0) (at_ (conf .w32 .opt unity) .absorb 2 1 0x1400)) =
      some ⟨2, 1, .fault, .underrun⟩ ∧
    after control (exec (.finish 0) (State.resetOf (conf .w32 .opt unity))) =
      some ⟨0, 0, .fault, .seqFinish⟩ := by decide

/-! ### Reserved opcodes, FAULT, reset (95_test_vectors 2.4, P4) -/

/-- The all-zero token and `f000000000000007b` are illegal; in FAULT a token changes nothing. -/
theorem test_reserved :
    after control (exec (decode 0x00000000000000000#68) (State.resetOf (conf .w32 .opt unity))) =
      some ⟨0, 0, .fault, .illCmd⟩ ∧
    after control (exec (decode 0xf000000000000007b#68) (at_ (conf .w32 .opt unity) .absorb 1 0 4)) =
      some ⟨1, 0, .fault, .illCmd⟩ ∧
    after control (exec (.start 8 0) { State.resetOf (conf .w64 .full unity) with phase := .fault, err := .lenErr }) =
      some ⟨0, 0, .fault, .lenErr⟩ := by decide

/-- The first step after reset runs the token the host presents, with the open constants of the instance. -/
theorem test_first_step_after_reset :
    after control (step (State.reset.withFetchWord 72 0x10000000812345678)) = some ⟨1, 0, .absorb, .none⟩ := by
  decide

/-- CFG of the four variants at `cfg_o`: the width in bit 0, the profile in bit 1 (10_state R28). -/
theorem test_cfg_port :
    (outputs (State.resetOf (conf .w64 .full unity))).cfgO = 0b00 ∧
    (outputs (State.resetOf (conf .w32 .full unity))).cfgO = 0b01 ∧
    (outputs (State.resetOf (conf .w64 .opt unity))).cfgO = 0b10 ∧
    (outputs (State.resetOf (conf .w32 .opt unity))).cfgO = 0b11 := by decide

/-- The step function over the registers alone: ABSORB and FINISH of 95_test_vectors 2.4, and a reset. -/
theorem test_transitions :
    (transitions (conf .w32 .opt unity) Registers.reset
      [.token 0x10000000400000000, .token 0x2ffffffff00000000]).h = 0xa00 ∧
    (transitions (conf .w32 .opt unity) Registers.reset
      [.token 0x10000000400000000, .token 0x30000000000000000]).err = .underrun ∧
    transitions (conf .w32 .opt unity) Registers.reset [.token 0x00000000000000000, .reset] = Registers.reset := by
  decide

/-- A reset presented with a token: the token is not accepted (60_exceptions R135). -/
theorem test_reset_wins :
    after control (step { at_ (conf .w64 .full unity) .absorb 3 1 5 with
      pins := [⟨true, true, true, 0x30000000000000000⟩] }) = some ⟨0, 0, .idle, .none⟩ := by decide

/-! ### Words, messages, assembler -/

/-- Byte orders (95_test_vectors 2.7). -/
theorem test_byte_orders :
    wordOf .le [0, 1, 2, 3, 4, 5, 6, 7] = 0x0706050403020100 ∧
    wordOf .be [0, 1, 2, 3, 4, 5, 6, 7] = 0x0001020304050607 ∧
    msgWord (conf .w32 .full unity) [0, 1, 2, 3, 4, 5, 6, 7] 8 1 = some 0x07060504 ∧
    msgWord (conf .w32 .full unity) [0, 1, 2, 3, 4, 5, 6, 7] 8 2 = none := by decide

/-- Whole messages: program P2 and the two-word digests of both byte orders (95_test_vectors 2.6, 2.7). -/
theorem test_message_digests :
    digestFn (conf .w64 .full mixed) ((List.range 48).map (BitVec.ofNat 8)) 48 0x12345678 = some 0x296e3b42 ∧
    digestFn (conf .w32 .opt mixed) ((List.range 8).map (BitVec.ofNat 8)) 8 0x12345678 = some 0xcd9af935 ∧
    digestFn { conf .w32 .opt mixed with byteOrder := .be } ((List.range 8).map (BitVec.ofNat 8)) 8 0x12345678 =
      some 0xde08ecbc ∧
    digestFn (conf .w64 .full mixed) [0, 0, 0, 0] 4 0 = none := by decide

/-- Program P1 of 95_test_vectors, as text; a bad HASH length and a number too wide are rejected. -/
theorem test_assembler :
    assembleText (conf .w64 .full unity)
        [".cfg W32/FULL".toList, ".reset ; from reset".toList, "HASH 0x12345678, 00 01 02 03 04 05 06 07".toList] =
      some [.reset, .token 0x10000000812345678, .token 0x20000000003020100, .token 0x20000000007060504,
        .token 0x30000000000000000] ∧
    assembleText (conf .w32 .opt unity) ["START 4, 0".toList, ".token 0x2ffffffff00000000".toList] =
      some [.token 0x10000000400000000, .token 0x2ffffffff00000000] ∧
    assembleText (conf .w64 .full unity) ["HASH 0, 00 01 02 03".toList] = none ∧
    assembleText (conf .w32 .full unity) ["ABSORB 0x100000000".toList] = none ∧
    tokenListing 0x10000000800000000 = "10000000800000000".toList := by decide

/-- A host that drops a token before it is accepted, and one that holds it (70_reset_and_hazards R156). -/
theorem test_holds :
    holdsTokens [⟨false, true, false, 5⟩, ⟨false, false, true, 5⟩] = false ∧
    holdsTokens [⟨false, true, false, 5⟩, ⟨false, true, true, 5⟩] = true := by decide

/-! ### Witnesses: for each obligation with hypotheses, a state and operands that meet them -/

theorem witness_DecodeOfEncode : Instr.wellFormed (.reservedF 0xffffffffffffffff) = true := by decide

theorem witness_FieldsOfFormats :
    (0x1ffffffffffffffff#68).extractLsb' 64 4 = 0b0001#4 ∧ (0x20000000000000000#68).extractLsb' 64 4 = 0b0010#4 ∧
    (0x3ffffffffffffffff#68).extractLsb' 64 4 = 0b0011#4 := by decide

/-- The state and samples of the step witnesses: an open W64/FULL message with one word to come. -/
def presenting (p : Pins) : State := { at_ (conf .w64 .full mixed) .absorb 1 0 8 with pins := [p] }

theorem witness_StepRunsPresentedToken :
    (presenting (presented 0x20000000000000000)).pins = [presented 0x20000000000000000] ∧
    (presented 0x20000000000000000).cmdValid = true ∧ (presented 0x20000000000000000).cmdReady = true ∧
    (presented 0x20000000000000000).rst = false := by decide

theorem witness_ResetOverridesToken :
    (presenting ⟨true, true, true, 0x30000000000000000⟩).pins = [⟨true, true, true, 0x30000000000000000⟩] := by
  decide

theorem witness_UnacceptedTokenDoesNothing :
    (presenting ⟨false, true, false, 5⟩).pins = [⟨false, true, false, 5⟩] ∧
    (presenting ⟨false, false, true, 5⟩).pins = [⟨false, false, true, 5⟩] := by decide

theorem witness_CoreWaitsForHost : (State.resetOf (conf .w32 .full unity)).pins = [] := by decide

/-- One token presented twice, the first time accepted at once. -/
theorem witness_HeldTokensAreAccepted :
    holdsTokens ([⟨false, true, true, 5⟩, ⟨false, true, false, 5⟩] ++ [⟨false, true, true, 5⟩]) = true ∧
    (∀ p ∈ ([⟨false, true, true, 5⟩, ⟨false, true, false, 5⟩] ++ [⟨false, true, true, 5⟩] : List Pins),
      p.rst = false) ∧
    ([⟨false, true, true, 5⟩, ⟨false, true, false, 5⟩] ++ [⟨false, true, true, 5⟩] : List Pins)[1]? =
      some ⟨false, true, false, 5⟩ := by
  decide

theorem witness_StartOpensMessage :
    (at_ (conf .w64 .full mixed) .done 1 1 5).phase = .done ∧ (0xfffffff8#32).toNat % 8 = 0 ∧
    (State.resetOf (conf .w32 .opt mixed)).phase = .idle ∧ (0xfffffffc#32).toNat % 4 = 0 ∧
    (0#32).toNat % 4 = 0 := by decide

theorem witness_StartBadLengthFaults :
    (State.resetOf (conf .w64 .full mixed)).phase = .idle ∧ (0x14#32).extractLsb' 0 3 ≠ 0 ∧
    (at_ (conf .w32 .full mixed) .done 0 0 0).phase = .done ∧ (0xffffffff#32).extractLsb' 0 2 ≠ 0 := by decide

theorem witness_StartDuringMessageFaults : (at_ (conf .w64 .full mixed) .absorb 1 0 0).phase = .absorb := by
  decide

theorem witness_StartForgetsHistory :
    (State.resetOf (conf .w64 .full mixed)).phase = .idle ∧ (at_ (conf .w64 .full mixed) .done 3 3 7).phase = .done ∧
    (State.resetOf (conf .w64 .full mixed)).cfg = (at_ (conf .w64 .full mixed) .done 3 3 7).cfg ∧
    lenLegal (conf .w64 .full mixed).width 8 = true := by decide

theorem witness_WordCountIsExact :
    (State.resetOf (conf .w64 .full mixed)).phase = .idle ∧ lenLegal .w64 0xfffffff8 = true ∧
    lenLegal .w32 0xfffffffc = true := by decide

theorem witness_StartFrame :
    after (fun t => t.phase) (exec (.start 8 0) (State.resetOf (conf .w64 .full mixed))) = some .absorb ∧
    after (fun t => t.phase) (exec (.start 7 0) (State.resetOf (conf .w64 .full mixed))) = some .fault := by decide

/-- The first and the last block word, and the first and the last tail word, of a message of seven words. -/
theorem witness_AbsorbRoundW64Full :
    (at_ (conf .w64 .full mixed) .absorb 7 0 1).phase = .absorb ∧ 0 < (7 : Count).toNat ∧
    0 < 4 * ((7 : Count).toNat / 4) ∧ 0 % 4 = ((0 : Fin 4) : Nat) ∧
    3 < 4 * ((7 : Count).toNat / 4) ∧ 3 % 4 = ((3 : Fin 4) : Nat) ∧
    4 * ((7 : Count).toNat / 4) ≤ (4 : Count).toNat ∧ (7 : Count).toNat - (4 : Count).toNat = ((2 : Fin 3) : Nat) + 1 ∧
    4 * ((7 : Count).toNat / 4) ≤ (6 : Count).toNat ∧
    (7 : Count).toNat - (6 : Count).toNat = ((0 : Fin 3) : Nat) + 1 := by decide

theorem witness_AbsorbRoundW64Opt :
    (at_ (conf .w64 .opt mixed) .absorb 3 2 1).phase = .absorb ∧ (2 : Count).toNat < (3 : Count).toNat ∧
    (2 : Count).toNat % 3 = ((2 : Fin 3) : Nat) ∧ ((2 : Count).toNat + 1) % 3 = ((0 : Fin 3) : Nat) := by decide

theorem witness_AbsorbRoundW32 :
    (at_ (conf .w32 .full mixed) .absorb 1 0 1).phase = .absorb ∧
    (at_ (conf .w32 .full mixed) .absorb 1 0 1).idx.toNat < (at_ (conf .w32 .full mixed) .absorb 1 0 1).nw.toNat ∧
    (conf .w32 .full mixed).width = .w32 ∧ (conf .w32 .full mixed).profile = .full ∧
    (conf .w32 .opt mixed).width = .w32 ∧ (conf .w32 .opt mixed).profile = .opt := by decide

/-- Each clause of the legality of ABSORB and of FINISH, where they meet: IDX just below NW, and at NW. -/
theorem witness_Legality :
    (State.resetOf (conf .w32 .full mixed)).phase = .idle ∧ (at_ (conf .w32 .full mixed) .done 0 0 0).phase = .done ∧
    (at_ (conf .w32 .full mixed) .absorb 3 3 0).idx = (at_ (conf .w32 .full mixed) .absorb 3 3 0).nw ∧
    (at_ (conf .w32 .full mixed) .absorb 3 2 0).idx < (at_ (conf .w32 .full mixed) .absorb 3 2 0).nw ∧
    (at_ (conf .w32 .full mixed) .fault 3 2 0).phase = .fault := by decide

theorem witness_AbsorbFrame :
    after (fun t => t.phase) (exec (.absorb 1) (at_ (conf .w64 .opt mixed) .absorb 1 0 1)) = some .absorb ∧
    after (fun t => t.phase) (exec (.absorb 1) (at_ (conf .w64 .opt mixed) .absorb 1 1 1)) = some .fault := by decide

theorem witness_IgnoredBitsChangeNothing :
    (conf .w32 .full mixed).width = .w32 ∧
    (0xf0000000000000000#68).extractLsb' 64 4 = (0xfffffffffffffffff#68).extractLsb' 64 4 ∧
    (decode 0xf0000000000000000#68).isCommand = false := by decide

/-- A legal configuration of every variant, and one of W64/OPT with an even M64O and an even G1. -/
theorem witness_LegalConfigurations :
    (conf .w64 .full mixed).legal = true ∧ (conf .w64 .opt mixed).legal = true ∧
    (conf .w32 .full mixed).legal = true ∧ (conf .w32 .opt mixed).legal = true ∧
    (conf .w64 .opt { mixed with m64o := 2, g1 := 2, c2 := 2, c2o := 2 }).legal = true ∧
    (conf .w64 .opt mixed).consts.m64o.getLsbD 0 = true := by decide

theorem witness_Finish :
    (at_ (conf .w64 .full mixed) .absorb 0 0 5).phase = .absorb ∧
    (at_ (conf .w64 .full mixed) .absorb 0 0 5).idx = (at_ (conf .w64 .full mixed) .absorb 0 0 5).nw ∧
    (at_ (conf .w64 .opt mixed) .absorb 536870911 536870911 5).idx =
      (at_ (conf .w64 .opt mixed) .absorb 536870911 536870911 5).nw ∧
    (at_ (conf .w32 .opt mixed) .absorb 1 1 5).idx = (at_ (conf .w32 .opt mixed) .absorb 1 1 5).nw ∧
    (at_ (conf .w32 .opt mixed) .absorb 1 1 0).h = 0 := by decide

theorem witness_FinishFrame :
    after (fun t => t.phase) (exec (.finish 1) (at_ (conf .w64 .opt mixed) .absorb 1 1 1)) = some .done ∧
    after (fun t => t.phase) (exec (.finish 1) (at_ (conf .w64 .opt mixed) .absorb 1 0 1)) = some .fault := by decide

theorem witness_ReservedOpcodesFault :
    (State.resetOf (conf .w64 .full mixed)).phase ≠ .fault ∧ (at_ (conf .w64 .full mixed) .done 1 1 1).phase ≠ .fault := by
  decide

/-- One cell of the table for each of the seven faults, and legal cells of the three commands. -/
theorem witness_FaultTable :
    faultOf (.reserved0 0) (State.resetOf (conf .w64 .full mixed)) = some .illCmd ∧
    faultOf (.start 4 0) (State.resetOf (conf .w64 .full mixed)) = some .lenErr ∧
    faultOf (.start 4 0) (at_ (conf .w64 .full mixed) .absorb 1 0 0) = some .seqStart ∧
    faultOf (.absorb 0) (at_ (conf .w64 .full mixed) .done 0 0 0) = some .seqAbsorb ∧
    faultOf (.absorb 0) (at_ (conf .w64 .full mixed) .absorb 1 1 0) = some .overrun ∧
    faultOf (.finish 0) (at_ (conf .w64 .full mixed) .absorb 1 0 0) = some .underrun ∧
    faultOf (.finish 0) (State.resetOf (conf .w64 .full mixed)) = some .seqFinish ∧
    faultOf (.start 8 0) (State.resetOf (conf .w64 .full mixed)) = none ∧
    faultOf (.absorb 0) (at_ (conf .w64 .full mixed) .absorb 1 0 0) = none ∧
    faultOf (.finish 0) (at_ (conf .w64 .full mixed) .absorb 1 1 0) = none := by decide

/-- A fault is entered from each of IDLE, ABSORB and DONE, and ERR changes as it is. -/
theorem witness_FaultEntry :
    after (fun t => (t.phase, t.err)) (exec (.finish 0) (State.resetOf (conf .w64 .full mixed))) =
      some (.fault, .seqFinish) ∧
    after (fun t => (t.phase, t.err)) (exec (.start 8 0) (at_ (conf .w64 .full mixed) .absorb 1 0 0)) =
      some (.fault, .seqStart) ∧
    after (fun t => (t.phase, t.err)) (exec (.reserved4 0) (at_ (conf .w64 .full mixed) .done 1 1 0)) =
      some (.fault, .illCmd) := by decide

theorem witness_FaultIgnoresAllTokens : (at_ (conf .w64 .full mixed) .fault 1 0 0).phase = .fault := by decide

/-- Every kind of change the writers' and the flags' statements speak of happens. -/
theorem witness_Changes :
    after (fun t => (t.nw, t.phase)) (exec (.start 8 1) (State.resetOf (conf .w64 .full mixed))) =
      some (1, .absorb) ∧
    after (fun t => t.idx) (exec (.absorb 1) (at_ (conf .w64 .full mixed) .absorb 1 0 9)) = some 1 ∧
    after (fun t => (t.digest, validFlag t)) (exec (.finish 0) (at_ (conf .w64 .full unity) .absorb 0 0 1)) =
      some (1, true) ∧
    after validFlag (exec (.start 0 0) (at_ (conf .w64 .full unity) .done 0 0 1)) = some false ∧
    after faultFlag (exec (.finish 0) (at_ (conf .w64 .full unity) .done 0 0 1)) = some true := by decide

theorem witness_ConfigurationNeverChanges :
    after (fun t => t.phase) (step (presenting (presented 0x20000000000000000))) = some .absorb ∧
    after (fun t => t.phase) (step (presenting (pinsOf .reset))) = some .idle := by decide

/-- Two states that differ in H and DIGEST, and two words, two seeds, two ignored payloads. -/
theorem witness_ControlIndependentOfData :
    Instr.opcode (.absorb 1) = Instr.opcode (.absorb 2) ∧ Instr.opcode (.start 8 1) = Instr.opcode (.start 8 2) ∧
    Instr.opcode (.finish 1) = Instr.opcode (.finish 2) ∧ Instr.opcode (.reserved7 1) = Instr.opcode (.reserved7 2) ∧
    after control (exec (.absorb 1) (at_ (conf .w64 .full mixed) .absorb 2 0 5)) = some ⟨2, 1, .absorb, .none⟩ ∧
    after control (exec (.absorb 2) { at_ (conf .w64 .full mixed) .absorb 2 0 6 with digest := 3 }) =
      some ⟨2, 1, .absorb, .none⟩ ∧
    after control (exec (.start 8 1) (State.resetOf (conf .w64 .full mixed))) = some ⟨1, 0, .absorb, .none⟩ ∧
    after control (exec (.start 8 2) (State.resetOf (conf .w64 .full mixed))) = some ⟨1, 0, .absorb, .none⟩ := by decide

/-- A state with an open message meets the invariants, and a step leaves it. -/
theorem witness_StepKeepsStateInvariant :
    StateInv (presenting (presented 0x20000000000000000)) ∧
    after (fun t => t.idx) (step (presenting (presented 0x20000000000000000))) = some 1 := by
  refine ⟨⟨?_, ?_, ?_, ?_, ?_, ?_⟩, ?_⟩ <;> decide

theorem witness_OutputPorts :
    (at_ (conf .w64 .full mixed) .absorb 2 2 5).phase = .absorb ∧
    (at_ (conf .w64 .full mixed) .absorb 2 2 5).idx = (at_ (conf .w64 .full mixed) .absorb 2 2 5).nw ∧
    StateInv (State.resetOf (conf .w64 .full mixed)) ∧ (State.resetOf (conf .w64 .full mixed)).phase = .idle := by
  refine ⟨?_, ?_, ⟨?_, ?_, ?_, ?_, ?_, ?_⟩, ?_⟩ <;> decide

theorem witness_StepKeepsWordCountBound :
    (at_ (conf .w64 .full mixed) .absorb 536870911 0 0).nw.toNat ≤ countBound .w64 ∧
    (at_ (conf .w32 .full mixed) .absorb 1073741823 0 0).nw.toNat ≤ countBound .w32 := by decide

theorem witness_Bits : 0 < 33 ∧ 33 < 64 ∧ 31 < 64 ∧ 64 - 33 ≤ 31 ∧ 30 < 64 - 33 := by decide

theorem witness_WordIsSumOfBytes : ([1, 2, 3, 4, 5, 6, 7, 8] : List Byte).length ≤ 8 := by decide

theorem witness_WordsOfBothWidthsAgree :
    ([1, 2, 3, 4] : List Byte).length = 4 ∧ ([5, 6, 7, 8] : List Byte).length = 4 := by decide

theorem witness_BufferHasItsWords :
    lenLegal .w64 8 = true ∧ (8#32).toNat ≤ ([1, 2, 3, 4, 5, 6, 7, 8] : List Byte).length ∧
    lenLegal .w64 0 = true := by decide

theorem witness_HashExpansion :
    ([1, 2, 3, 4] : List Byte).length < 2 ^ 32 ∧ ([1, 2, 3, 4] : List Byte).length % unit .w32 = 0 ∧
    ([1, 2, 3, 4] : List Byte).length % unit .w64 ≠ 0 := by decide

/-- A one-word message after a finished one, and the empty message. -/
theorem witness_MessageRunGivesDigest :
    (at_ (conf .w64 .full mixed) .done 3 3 7).phase = .done ∧ lenLegal .w64 8 = true ∧
    ([5] : List Word64).length = (8#32).toNat / unit .w64 ∧
    ({ at_ (conf .w64 .full mixed) .done 3 3 7 with
        pins := (messageTokens 8 1 [5]).map presented } : State).pins = (messageTokens 8 1 [5]).map presented ++ [] ∧
    ([] : List Word64).length = (0#32).toNat / unit .w64 := by decide

end Sys2Proof.Tests
end

section
/-!
SUPPORT. The proofs of the statements of 00_scope. A run over presented tokens is the transitions of these
tokens on the registers (10_state R38), so the run of a whole message is START, ABSORB and FINISH on registers.
-/

namespace Sys2Proof.Machine

/-! ### One step -/

/-- Settles O7: such a sample is an accepted one. -/
theorem stepRunsPresentedToken : Obligations.StepRunsPresentedToken := by
  intro s p rest hp hvalid hready hrst
  have haccepted : accepted p = true := by simp [accepted, hvalid, hready, hrst]
  exact step_of_token hp haccepted

/-- Settles O10: without a sample there is no event. -/
theorem coreWaitsForHost : Obligations.CoreWaitsForHost :=
  fun _ => step_of_nil

/-! ### Rotation -/

/-- Below `r` a bit of a rotation by `r < n` has come round from the top. -/
theorem rotl_index_wraps {n r i : Nat} (hr : r < n) (hi : i < r) : (i + (n - r)) % n = n - r + i := by
  rw [Nat.mod_eq_of_lt (by omega)]
  omega

/-- From `r` on a bit of a rotation by `r < n` has moved up by `r`. -/
theorem rotl_index_moves {n r i : Nat} (hr : r < n) (hri : r ≤ i) (hi : i < n) :
    (i + (n - r)) % n = i - r := by
  have hsum : i + (n - r) = i - r + n := by omega
  rw [hsum, Nat.add_mod_right, Nat.mod_eq_of_lt (by omega)]

/-- Settles O52, by whether the residue of `r` is 0, and if not, by which of the two shifts bit `i` comes from. -/
theorem rotationMovesBits : Obligations.RotationMovesBits := by
  intro n a r i hi
  have hr : r % n < n := Nat.mod_lt r (by omega)
  by_cases hzero : r % n = 0
  · simp [rotl, hzero, Nat.mod_eq_of_lt hi]
  · rcases Nat.lt_or_ge i (r % n) with hlow | hhigh
    · rw [rotl_index_wraps hr hlow]
      simp [rotl, hzero, hi, hlow]
    · rw [rotl_index_moves hr hhigh hi]
      have htop : n ≤ n - r % n + i := by omega
      have hin : i - r % n < n := by omega
      simp [rotl, hzero, hi, hin, Nat.not_lt.mpr hhigh, BitVec.getLsbD_of_ge a _ htop]

/-! ### Tokens and runs -/

/-- The encoded token of an instruction decodes to it (30_encoding R60 to R63). -/
theorem decode_encode (i : Instr) : decode (encode i) = i := by
  cases i with
  | start len seed =>
    simp only [decode, encode, Instr.opcode, Instr.payload, opField_append]
    exact congrArg₂ Instr.start (lenField_append _ _ _) (seedField_append _ _ _)
  | _ => simp [decode, encode, Instr.opcode, Instr.payload, opField_append, payloadField_append]

/-- The transition at the token of an instruction. -/
@[simp] theorem transition_token_encode (c : Config) (r : Registers) (i : Instr) :
    transition c r (.token (encode i)) = tokenTransition i c r := by
  simp [transition, decode_encode]

/-- One step over a presented token is its transition. -/
theorem step_of_presented {s : State} {k : Token} {rest : List Pins} (hp : s.pins = presented k :: rest) :
    step s = .next { s with toRegisters := transition s.cfg s.toRegisters (.token k), pins := rest } := by
  rw [step_of_token hp rfl, exec_eq]
  rfl

/-- A run over presented tokens is their transitions, and leaves the samples behind them at the pins. -/
theorem run_of_presented (ks : List Token) (rest : List Pins) :
    ∀ s : State, s.pins = ks.map presented ++ rest →
      Sys2Proof.core.run ks.length s =
        .next { s with
          toRegisters := transitions s.cfg s.toRegisters (ks.map .token)
          pins := rest } := by
  induction ks with
  | nil =>
    rintro s rfl
    rfl
  | cons k ks ih =>
    intro s hp
    rw [List.length_cons, run_of_step _ (step_of_presented hp), ih _ rfl]
    rfl

/-! ### The three commands where they take no fault -/

/-- START of a legal length outside a message opens one (40_start R80, R81). -/
theorem startTransition_opens {len : Word32} {c : Config} {r : Registers} (seed : Word32)
    (hphase : r.phase = .idle ∨ r.phase = .done) (hlen : lenLegal c.width len = true) :
    startTransition len seed c r = openMessage (zext64 (seed ^^^ len)) (wordCount c.width len) r := by
  have hlive : r.phase ≠ .fault := by rcases hphase with h | h <;> simp [h]
  have hclosed : r.phase ≠ .absorb := by rcases hphase with h | h <;> simp [h]
  rw [startTransition, unlessFaulted_of_live hlive]
  rcases startLive_cases len seed c r with ⟨h, -⟩ | ⟨-, h, -⟩ | ⟨-, -, h⟩
  · exact absurd h hclosed
  · simp [hlen] at h
  · exact h

/-- ABSORB of a word the message has room for takes it (41_absorb R91, R92). -/
theorem absorbTransition_takes {c : Config} {r : Registers} (p : Word64) (hphase : r.phase = .absorb)
    (hroom : r.idx < r.nw) :
    absorbTransition p c r = takeWord (roundOf c r.nw.toNat r.idx.toNat r.h p) r := by
  rw [absorbTransition, unlessFaulted_of_live (by simp [hphase])]
  rcases absorbLive_cases p c r with ⟨h, -⟩ | ⟨-, h, -⟩ | ⟨-, -, h⟩
  · exact absurd hphase h
  · exact absurd hroom h
  · exact h

/-- FINISH with every word taken closes the message (42_finish R110, R118). -/
theorem finishTransition_closes {c : Config} {r : Registers} (hphase : r.phase = .absorb)
    (hfull : r.idx = r.nw) :
    finishTransition c r = closeMessage (finalOf c r.h) (digestOf c.width (finalOf c r.h)) r := by
  have hnone : ¬ r.idx < r.nw := by simp [hfull, BitVec.lt_irrefl]
  rw [finishTransition, unlessFaulted_of_live (by simp [hphase])]
  rcases finishLive_cases c r with ⟨h, -⟩ | ⟨-, h, -⟩ | ⟨-, -, h⟩
  · exact absurd hphase h
  · exact absurd h hnone
  · exact h

/-! ### A message -/

/-- NW of a message counts its units exactly (10_state R22, 40_start R81). -/
theorem wordCount_toNat (w : Width) (len : Word32) : (wordCount w len).toNat = len.toNat / unit w := by
  have hlen := len.isLt
  have hshift : len.toNat >>> log2Unit w = len.toNat / unit w := by
    cases w <;> rw [log2Unit, unit, Nat.shiftRight_eq_div_pow]
  have hfits : len.toNat / unit w < 2 ^ 30 := by
    cases w <;> rw [unit] <;> omega
  rw [wordCount, BitVec.toNat_setWidth, BitVec.toNat_ushiftRight, hshift, Nat.mod_eq_of_lt hfits]

/-- The events of a message's ABSORB tokens (70_reset_and_hazards R154). -/
def absorbEvents (words : List Word64) : List HostEvent := words.map fun w => .token (encode (.absorb w))

/-- The transitions of the ABSORB tokens of some words, the first of them first. -/
theorem transitions_absorbEvents_cons (c : Config) (r : Registers) (w : Word64) (ws : List Word64) :
    transitions c r (absorbEvents (w :: ws)) =
      transitions c (absorbTransition w c r) (absorbEvents ws) := by
  simp [transitions, absorbEvents, tokenTransition]

/-- The transitions of a message's tokens: START, then the words, then FINISH (70_reset_and_hazards R154). -/
theorem transitions_messageTokens (c : Config) (r : Registers) (len seed : Word32) (words : List Word64) :
    transitions c r ((messageTokens len seed words).map .token) =
      finishTransition c (transitions c (startTransition len seed c r) (absorbEvents words)) := by
  simp [messageTokens, absorbEvents, transitions, tokenTransition, List.foldl_map]

/-- ABSORB of the last words of an open message: the accumulator has folded them in, and IDX is NW
(41_absorb R92). -/
theorem transitions_absorbEvents_last (c : Config) (words : List Word64) :
    ∀ r : Registers, r.phase = .absorb → r.idx.toNat + words.length = r.nw.toNat →
      transitions c r (absorbEvents words) =
        { r with h := absorbAll c r.nw.toNat r.idx.toNat r.h words, idx := r.nw } := by
  induction words with
  | nil =>
    rintro ⟨h, nw, idx, phase, err, digest⟩ _ hlast
    obtain rfl : idx = nw := BitVec.eq_of_toNat_eq hlast
    rfl
  | cons w ws ih =>
    intro r hphase hlast
    rw [List.length_cons] at hlast
    have hroom : r.idx < r.nw := BitVec.lt_def.mpr (by omega)
    have hidx : (r.idx + 1).toNat = r.idx.toNat + 1 :=
      BitVec.toNat_add_of_lt (by have := r.nw.isLt; simp; omega)
    rw [transitions_absorbEvents_cons, absorbTransition_takes w hphase hroom, ih (takeWord _ r) hphase]
    · rw [takeWord_idx, hidx]
      rfl
    · rw [takeWord_idx, takeWord_nw, hidx]
      omega

/-- The tokens of a message, presented outside a message and outside FAULT, leave the registers of its
finished message: every field but ERR is the message's own (70_reset_and_hazards R154). -/
theorem transitions_messageTokens_finish {c : Config} {r : Registers} {len : Word32} {words : List Word64}
    (seed : Word32) (hphase : r.phase = .idle ∨ r.phase = .done) (hlen : lenLegal c.width len = true)
    (hcount : words.length = len.toNat / unit c.width) :
    transitions c r ((messageTokens len seed words).map .token) =
      { h := finalOf c (absorbAll c (wordCount c.width len).toNat 0 (zext64 (seed ^^^ len)) words)
        nw := wordCount c.width len
        idx := wordCount c.width len
        phase := .done
        err := r.err
        digest := messageDigest c len seed words } := by
  have hall : (0#30).toNat + words.length = (wordCount c.width len).toNat := by
    simp [wordCount_toNat, hcount]
  rw [transitions_messageTokens, startTransition_opens seed hphase hlen,
    transitions_absorbEvents_last c words _ rfl hall, finishTransition_closes rfl rfl]
  rfl

/-- A message of `n` words is `n + 2` tokens (70_reset_and_hazards R154). -/
@[simp] theorem messageTokens_length (len seed : Word32) (words : List Word64) :
    (messageTokens len seed words).length = words.length + 2 := by
  simp [messageTokens]

/-- Settles O58: the run is the transitions of the message's tokens, and these end in DONE with its digest. -/
theorem messageRunGivesDigest : Obligations.MessageRunGivesDigest := by
  intro s len seed words rest hphase hlen hcount hpins
  have hrun := run_of_presented (messageTokens len seed words) rest s hpins
  rw [messageTokens_length, transitions_messageTokens_finish seed hphase hlen hcount] at hrun
  exact ⟨_, hrun, rfl, rfl, rfl, rfl⟩

end Sys2Proof.Machine
end

section
/-!
SUPPORT. What one token and one step can do to the registers, said once: the inversion lemmas from which the
statements about every token and every step are derived.
-/

namespace Sys2Proof.Machine

/-! ### The table of faults -/

/-- The length check as an equation of numbers (40_start R82). -/
theorem lenLegal_iff {w : Width} {len : Word32} : lenLegal w len = true ↔ len.toNat % unit w = 0 := by
  simp [lenLegal]

/-- START while a message is open (60_exceptions R132, R134). -/
theorem faultOf_start_absorb {s : State} (len seed : Word32) (hphase : s.phase = .absorb) :
    faultOf (.start len seed) s = some .seqStart := by
  simp [faultOf, hphase]

/-- START of a bad length outside a message (60_exceptions R132). -/
theorem faultOf_start_badLength {s : State} {len : Word32} (seed : Word32) (hlive : s.phase ≠ .fault)
    (hclosed : s.phase ≠ .absorb) (hlen : lenLegal s.cfg.width len = false) :
    faultOf (.start len seed) s = some .lenErr := by
  have hbad : len.toNat % unit s.cfg.width ≠ 0 := by simp [← lenLegal_iff, hlen]
  cases hphase : s.phase <;> simp_all [faultOf]

/-- ABSORB while no message is open (60_exceptions R132). -/
theorem faultOf_absorb_closed {s : State} (w : Word64) (hlive : s.phase ≠ .fault)
    (hclosed : s.phase ≠ .absorb) : faultOf (.absorb w) s = some .seqAbsorb := by
  cases hphase : s.phase <;> simp_all [faultOf]

/-- ABSORB of a word too many (60_exceptions R132). -/
theorem faultOf_absorb_full {s : State} (w : Word64) (hphase : s.phase = .absorb)
    (hfull : ¬ s.idx < s.nw) : faultOf (.absorb w) s = some .overrun := by
  simp [faultOf, hphase, hfull]

/-- FINISH while no message is open (60_exceptions R132). -/
theorem faultOf_finish_closed {s : State} (p : Word64) (hlive : s.phase ≠ .fault)
    (hclosed : s.phase ≠ .absorb) : faultOf (.finish p) s = some .seqFinish := by
  cases hphase : s.phase <;> simp_all [faultOf]

/-- FINISH with words missing (60_exceptions R132). -/
theorem faultOf_finish_missing {s : State} (p : Word64) (hphase : s.phase = .absorb)
    (hroom : s.idx < s.nw) : faultOf (.finish p) s = some .underrun := by
  simp [faultOf, hphase, hroom]

/-- A reserved opcode outside FAULT (60_exceptions R131). -/
theorem faultOf_reserved {i : Instr} {s : State} (hi : i.isCommand = false) (hlive : s.phase ≠ .fault) :
    faultOf i s = some .illCmd := by
  cases i <;> cases hphase : s.phase <;> simp_all [faultOf, Instr.isCommand]

/-- No fault of the table has the code NONE (10_state R27). -/
theorem faultOf_ne_none {i : Instr} {s : State} {e : ErrCode} (h : faultOf i s = some e) : e ≠ .none := by
  rintro rfl
  unfold faultOf at h
  split at h <;> simp at h

/-! ### One token -/

/-- What the token of an instruction can do to the registers of `s`: it is ignored in FAULT, takes the fault
the table names, or is the finishing write of START, ABSORB or FINISH (60_exceptions R132, R138). -/
inductive TokenEffect (s : State) : Instr → Registers → Prop
  | ignored (i : Instr) (hphase : s.phase = .fault) : TokenEffect s i s.toRegisters
  | faults (i : Instr) (e : ErrCode) (hlive : s.phase ≠ .fault) (hfault : faultOf i s = some e) :
    TokenEffect s i (raise e s.toRegisters)
  | opens (len seed : Word32) (hphase : s.phase = .idle ∨ s.phase = .done)
    (hlen : lenLegal s.cfg.width len = true) :
    TokenEffect s (.start len seed)
      (openMessage (zext64 (seed ^^^ len)) (wordCount s.cfg.width len) s.toRegisters)
  | takes (w : Word64) (hphase : s.phase = .absorb) (hroom : s.idx < s.nw) :
    TokenEffect s (.absorb w) (takeWord (roundOf s.cfg s.nw.toNat s.idx.toNat s.h w) s.toRegisters)
  | closes (p : Word64) (hphase : s.phase = .absorb) (hfull : ¬ s.idx < s.nw) :
    TokenEffect s (.finish p)
      (closeMessage (finalOf s.cfg s.h) (digestOf s.cfg.width (finalOf s.cfg s.h)) s.toRegisters)

/-- A token whose transition outside FAULT is an effect has an effect in every phase. -/
theorem tokenEffect_unlessFaulted {s : State} {i : Instr} {f : Registers → Registers}
    (hf : s.phase ≠ .fault → TokenEffect s i (f s.toRegisters)) :
    TokenEffect s i (unlessFaulted f s.toRegisters) := by
  rcases unlessFaulted_cases f s.toRegisters with ⟨hfault, h⟩ | ⟨hlive, h⟩ <;> rw [h]
  · exact .ignored i hfault
  · exact hf hlive

/-- START outside FAULT (40_start R80). -/
theorem tokenEffect_startLive {s : State} (len seed : Word32) (hlive : s.phase ≠ .fault) :
    TokenEffect s (.start len seed) (startLive len seed s.cfg s.toRegisters) := by
  rcases startLive_cases len seed s.cfg s.toRegisters with
    ⟨hphase, h⟩ | ⟨hclosed, hlen, h⟩ | ⟨hclosed, hlen, h⟩ <;> rw [h]
  · exact .faults _ _ hlive (faultOf_start_absorb len seed hphase)
  · exact .faults _ _ hlive (faultOf_start_badLength seed hlive hclosed hlen)
  · have hphase : s.phase = .idle ∨ s.phase = .done := by
      cases hp : s.phase <;> simp_all
    exact .opens len seed hphase hlen

/-- ABSORB outside FAULT (41_absorb R91). -/
theorem tokenEffect_absorbLive {s : State} (w : Word64) (hlive : s.phase ≠ .fault) :
    TokenEffect s (.absorb w) (absorbLive w s.cfg s.toRegisters) := by
  rcases absorbLive_cases w s.cfg s.toRegisters with
    ⟨hclosed, h⟩ | ⟨hphase, hfull, h⟩ | ⟨hphase, hroom, h⟩ <;> rw [h]
  · exact .faults _ _ hlive (faultOf_absorb_closed w hlive hclosed)
  · exact .faults _ _ hlive (faultOf_absorb_full w hphase hfull)
  · exact .takes w hphase hroom

/-- FINISH outside FAULT (42_finish R110). -/
theorem tokenEffect_finishLive {s : State} (p : Word64) (hlive : s.phase ≠ .fault) :
    TokenEffect s (.finish p) (finishLive s.cfg s.toRegisters) := by
  rcases finishLive_cases s.cfg s.toRegisters with
    ⟨hclosed, h⟩ | ⟨hphase, hroom, h⟩ | ⟨hphase, hfull, h⟩ <;> rw [h]
  · exact .faults _ _ hlive (faultOf_finish_closed p hlive hclosed)
  · exact .faults _ _ hlive (faultOf_finish_missing p hphase hroom)
  · exact .closes p hphase hfull

/-- A reserved opcode (30_encoding R65). -/
theorem tokenEffect_illegal {s : State} {i : Instr} (hi : i.isCommand = false) :
    TokenEffect s i (illegal s.cfg s.toRegisters) :=
  tokenEffect_unlessFaulted fun hlive => .faults i .illCmd hlive (faultOf_reserved hi hlive)

/-- Everything the token of an instruction can do (30_encoding R61, R68). -/
theorem tokenTransition_effect (i : Instr) (s : State) :
    TokenEffect s i (tokenTransition i s.cfg s.toRegisters) := by
  cases i with
  | start len seed => exact tokenEffect_unlessFaulted (tokenEffect_startLive len seed)
  | absorb w => exact tokenEffect_unlessFaulted (tokenEffect_absorbLive w)
  | finish p => exact tokenEffect_unlessFaulted (tokenEffect_finishLive p)
  | _ => exact tokenEffect_illegal rfl

/-- The state an instruction answers: registers its token can leave, and the rest as it was. -/
theorem exec_effect {i : Instr} {s t : State} (h : exec i s = .next t) :
    ∃ r, TokenEffect s i r ∧ t = { s with toRegisters := r } := by
  rw [exec_eq, Host.Outcome.next.injEq] at h
  exact ⟨_, tokenTransition_effect i s, h.symm⟩

/-! ### One step -/

/-- A sample of the pins is one step: the transitions of the events it causes, none or one (10_state R35, R38). -/
theorem step_of_cons {s : State} {p : Pins} {rest : List Pins} (hp : s.pins = p :: rest) :
    step s = .next { s with
      toRegisters := transitions s.cfg s.toRegisters (eventOf p).toList
      pins := rest } := by
  cases hrst : p.rst with
  | true =>
    rw [step_of_reset hp hrst, eventOf_of_rst hrst]
    rfl
  | false =>
    cases hacc : accepted p with
    | true =>
      rw [step_of_token hp hacc, exec_eq, eventOf_of_accepted hacc]
      rfl
    | false =>
      rw [step_of_idle hp hrst hacc, eventOf_of_idle hrst hacc]
      rfl

/-- What a step can do to the registers of `s`: nothing, a reset, or the effect of a token (00_scope R17). -/
inductive StepEffect (s : State) : Registers → Prop
  | waits : StepEffect s s.toRegisters
  | resets : StepEffect s Registers.reset
  | token (i : Instr) (r : Registers) (heffect : TokenEffect s i r) : StepEffect s r

/-- The transitions of what one sample of the pins causes. -/
theorem stepEffect_eventOf (s : State) (p : Pins) :
    StepEffect s (transitions s.cfg s.toRegisters (eventOf p).toList) := by
  cases eventOf p with
  | none => exact .waits
  | some e =>
    cases e with
    | reset => exact .resets
    | token k => exact .token _ _ (tokenTransition_effect (decode k) s)

/-- The state a step answers: registers a step can leave, the configuration as it was, and some pins. -/
theorem step_effect {s t : State} (h : step s = .next t) :
    ∃ r ps, StepEffect s r ∧ t = { s with toRegisters := r, pins := ps } := by
  cases hp : s.pins with
  | nil =>
    rw [step_of_nil hp, Host.Outcome.next.injEq] at h
    exact ⟨_, _, .waits, h.symm⟩
  | cons p rest =>
    rw [step_of_cons hp, Host.Outcome.next.injEq] at h
    exact ⟨_, _, stepEffect_eventOf s p, h.symm⟩

end Sys2Proof.Machine
end

section
/-!
SUPPORT. The proofs of the statements of 10_state. What holds of every token or every step follows by cases on
its effect on the registers.
-/

namespace Sys2Proof.Machine

/-! ### The state invariant -/

/-- A zero-extended word has a zero upper half (00_scope R14). -/
@[simp] theorem hi32_zext64 (v : Word32) : hi32 (zext64 v) = 0 := by
  ext i hi
  simp [hi32, zext64]

/-- A round of the 32-bit path writes the upper half of H with zero (10_state R21). -/
theorem hi32_roundOf {c : Config} (nw idx : Nat) (h w : Word64) (hw : c.width = .w32) :
    hi32 (roundOf c nw idx h w) = 0 := by
  cases hp : c.profile <;> simp [roundOf, hw, hp]

/-- So does its finalizer (10_state R21). -/
theorem hi32_finalOf {c : Config} (h : Word64) (hw : c.width = .w32) : hi32 (finalOf c h) = 0 := by
  simp [finalOf, hw]

/-- Under the invariant ERR is NONE outside FAULT (10_state R36 (b)). -/
theorem err_eq_none_of_live {s : State} (hinv : StateInv s) (hlive : s.phase ≠ .fault) : s.err = .none :=
  of_not_not fun herr => hlive (hinv.err_iff.mp herr)

/-- The reset values have the invariant, whatever is at the pins. -/
theorem stateInv_reset (c : Config) (ps : List Pins) : StateInv ⟨Registers.reset, c, ps⟩ where
  idx_le := by simp
  err_iff := by simp
  high_zero := by simp [hi32]
  idle_zero := by simp
  absorb_zero := by simp
  done_full := by simp

/-- A token keeps the invariant: each of its effects does, whatever is at the pins after it. -/
theorem stateInv_tokenEffect {s : State} {i : Instr} {r : Registers} (ps : List Pins) (hinv : StateInv s)
    (heffect : TokenEffect s i r) : StateInv { s with toRegisters := r, pins := ps } := by
  cases heffect with
  | ignored => exact { hinv with }
  | faults _ e hlive hfault =>
    exact
      { idx_le := hinv.idx_le
        err_iff := by simp [faultOf_ne_none hfault]
        high_zero := hinv.high_zero
        idle_zero := by simp
        absorb_zero := by simp
        done_full := by simp }
  | opens len seed hphase =>
    have herr : s.err = .none := err_eq_none_of_live hinv (by rcases hphase with h | h <;> simp [h])
    exact
      { idx_le := by simp [BitVec.le_def]
        err_iff := by simp [herr]
        high_zero := by simp
        idle_zero := by simp
        absorb_zero := by simp
        done_full := by simp }
  | takes w hphase hroom =>
    have herr : s.err = .none := err_eq_none_of_live hinv (by simp [hphase])
    have hnext : s.idx + 1 ≤ s.nw := by bv_omega
    exact
      { idx_le := hnext
        err_iff := by simp [herr, hphase]
        high_zero := hi32_roundOf _ _ _ _
        idle_zero := by simp [hphase]
        absorb_zero := fun _ => hinv.absorb_zero hphase
        done_full := by simp [hphase] }
  | closes p hphase hfull =>
    have herr : s.err = .none := err_eq_none_of_live hinv (by simp [hphase])
    exact
      { idx_le := hinv.idx_le
        err_iff := by simp [herr]
        high_zero := hi32_finalOf _
        idle_zero := by simp
        absorb_zero := by simp
        done_full := fun _ => BitVec.le_antisymm hinv.idx_le (BitVec.not_lt.mp hfull) }

/-- Settles O49: waiting changes no register, a reset has the invariant of itself, and a token keeps it. -/
theorem stepKeepsStateInvariant : Obligations.StepKeepsStateInvariant := by
  intro s t hinv hstep
  obtain ⟨r, ps, heffect, rfl⟩ := step_effect hstep
  cases heffect with
  | waits => exact { hinv with }
  | resets => exact stateInv_reset s.cfg ps
  | token i _ heffect => exact stateInv_tokenEffect ps hinv heffect

/-- Settles O50: nothing is at the pins after reset. -/
theorem resetHasStateInvariant : Obligations.ResetHasStateInvariant :=
  fun c => stateInv_reset c []

/-! ### The word count -/

/-- The count of a 32-bit length's units is within the bound of 10_state R22. -/
theorem wordCount_le_countBound (w : Width) (len : Word32) : (wordCount w len).toNat ≤ countBound w := by
  have hlen := len.isLt
  rw [wordCount_toNat]
  cases w <;> simp only [unit, countBound] <;> omega

/-- A legal length is as many units as its count says (20_memory R46). -/
theorem wordCount_mul_unit {w : Width} {len : Word32} (hlen : lenLegal w len = true) :
    (wordCount w len).toNat * unit w = len.toNat := by
  rw [wordCount_toNat, Nat.div_mul_cancel (Nat.dvd_of_mod_eq_zero (lenLegal_iff.mp hlen))]

/-- Settles O19: such a START writes NW with the count of its length's units. -/
theorem wordCountIsExact : Obligations.WordCountIsExact := by
  intro s len seed hphase hlen
  refine ⟨_, exec_eq _ s, ?_⟩
  have hopens : (s.onRegisters (tokenTransition (.start len seed))).nw = wordCount s.cfg.width len :=
    congrArg Registers.nw (startTransition_opens seed hphase hlen)
  have hexact := wordCount_mul_unit hlen
  have hbound := wordCount_le_countBound s.cfg.width len
  rw [hopens]
  cases hw : s.cfg.width <;> rw [hw] at hexact hbound <;> exact ⟨hexact, hbound⟩

/-- Settles O51: only a reset and an opening START write NW. -/
theorem stepKeepsWordCountBound : Obligations.StepKeepsWordCountBound := by
  intro s t hbound hstep
  obtain ⟨r, ps, heffect, rfl⟩ := step_effect hstep
  cases heffect with
  | waits => exact hbound
  | resets => exact Nat.zero_le _
  | token i _ heffect =>
    cases heffect with
    | opens len seed => exact wordCount_le_countBound s.cfg.width len
    | ignored | faults | takes | closes => exact hbound

/-! ### Samples and events -/

/-- The events of some samples are those of the first, none or one, and then those of the rest. -/
theorem eventsOf_cons (p : Pins) (ps : List Pins) : eventsOf (p :: ps) = (eventOf p).toList ++ eventsOf ps := by
  cases h : eventOf p <;> simp [eventsOf, h]

/-- The samples at which a host brings about some events cause these events. -/
@[simp] theorem eventsOf_map_pinsOf (es : List HostEvent) : eventsOf (es.map pinsOf) = es := by
  simp [eventsOf, List.filterMap_map]

/-- Transitions of two event sequences in turn. -/
theorem transitions_append (c : Config) (r : Registers) (es es' : List HostEvent) :
    transitions c r (es ++ es') = transitions c (transitions c r es) es' :=
  List.foldl_append

/-- A run over all samples at the pins is the transitions of their events (70_reset_and_hazards R156). -/
theorem run_of_samples (ps : List Pins) :
    ∀ s : State, Sys2Proof.core.run ps.length { s with pins := ps } =
      .next { s with toRegisters := transitions s.cfg s.toRegisters (eventsOf ps), pins := [] } := by
  induction ps with
  | nil => exact fun s => rfl
  | cons p ps ih =>
    intro s
    rw [List.length_cons, run_of_step _ (step_of_cons rfl), eventsOf_cons, transitions_append]
    exact ih { s with toRegisters := transitions s.cfg s.toRegisters (eventOf p).toList }

/-- Settles O11: the samples and their events alone have the same events, so both runs end alike. -/
theorem runSkipsUnacceptedSamples : Obligations.RunSkipsUnacceptedSamples := by
  intro s ps
  have hevents := run_of_samples ((eventsOf ps).map pinsOf) s
  rw [List.length_map, eventsOf_map_pinsOf] at hevents
  exact ⟨run_of_samples ps s, (run_of_samples ps s).trans hevents.symm⟩

/-- Settles O9: such a sample is not an accepted one. -/
theorem unacceptedTokenDoesNothing : Obligations.UnacceptedTokenDoesNothing := by
  intro s p rest hp hrst hlow
  have hacc : accepted p = false := by rcases hlow with h | h <;> simp [accepted, h]
  exact step_of_idle hp hrst hacc

/-! ### PHASE, ERR and the status flags -/

/-- The changes of PHASE a token can make (10_state R26). -/
theorem TokenEffect.phase_change {s : State} {i : Instr} {r : Registers} (heffect : TokenEffect s i r)
    (hne : r.phase ≠ s.phase) :
    ((s.phase = .idle ∨ s.phase = .done) ∧ r.phase = .absorb ∧ ∃ len seed, i = .start len seed) ∨
    (s.phase = .absorb ∧ r.phase = .done ∧ ∃ p, i = .finish p) ∨
    (s.phase ≠ .fault ∧ r.phase = .fault ∧ faultOf i s = some r.err) := by
  cases heffect with
  | ignored | takes => exact absurd rfl hne
  | faults _ e hlive hfault => exact .inr (.inr ⟨hlive, rfl, hfault⟩)
  | opens len seed hphase => exact .inl ⟨hphase, rfl, len, seed, rfl⟩
  | closes p hphase => exact .inr (.inl ⟨hphase, rfl, p, rfl⟩)

/-- From every phase a reset goes to IDLE (10_state R26). -/
theorem reset_mem_phaseMoves (ph : Phase) : (ph, Phase.idle) ∈ phaseMoves := by
  cases ph <;> decide

/-- From every phase but FAULT a faulting token goes to FAULT (10_state R26). -/
theorem fault_mem_phaseMoves {ph : Phase} (hlive : ph ≠ .fault) : (ph, Phase.fault) ∈ phaseMoves := by
  cases ph with
  | fault => exact absurd rfl hlive
  | idle | absorb | done => decide

/-- A change of PHASE by a token is one of the listed moves (10_state R26). -/
theorem TokenEffect.mem_phaseMoves {s : State} {i : Instr} {r : Registers} (heffect : TokenEffect s i r)
    (hne : r.phase ≠ s.phase) : (s.phase, r.phase) ∈ phaseMoves := by
  rcases heffect.phase_change hne with ⟨hs | hs, hr, -⟩ | ⟨hs, hr, -⟩ | ⟨hs, hr, -⟩ <;> rw [hr]
  · rw [hs]; decide
  · rw [hs]; decide
  · rw [hs]; decide
  · exact fault_mem_phaseMoves hs

/-- Every step leaves PHASE as it is or makes one of the listed moves (10_state R26). -/
theorem StepEffect.phase_eq_or_mem_phaseMoves {s : State} {r : Registers} (heffect : StepEffect s r) :
    r.phase = s.phase ∨ (s.phase, r.phase) ∈ phaseMoves := by
  cases heffect with
  | waits => exact .inl rfl
  | resets => exact .inr (reset_mem_phaseMoves s.phase)
  | token i _ heffect =>
    by_cases heq : r.phase = s.phase
    · exact .inl heq
    · exact .inr (heffect.mem_phaseMoves heq)

/-- Settles O43, by the effects of a token and of a step on PHASE. -/
theorem phaseTransitions : Obligations.PhaseTransitions := by
  refine ⟨⟨rfl, rfl, rfl, rfl⟩, ?_, fun s => ⟨rfl, rfl⟩, ?_⟩
  · intro i s t hexec hne
    obtain ⟨r, heffect, rfl⟩ := exec_effect hexec
    exact heffect.phase_change hne
  · intro s t hstep
    obtain ⟨r, ps, heffect, rfl⟩ := step_effect hstep
    exact heffect.phase_eq_or_mem_phaseMoves

/-- Settles O44: of the effects of a token only taking a fault writes ERR. -/
theorem errWrittenByFaultAlone : Obligations.ErrWrittenByFaultAlone := by
  refine ⟨⟨rfl, rfl, rfl, rfl, rfl, rfl, rfl, rfl⟩, ?_, fun s => ⟨rfl, rfl⟩⟩
  intro i s t hexec hne
  obtain ⟨r, heffect, rfl⟩ := exec_effect hexec
  cases heffect with
  | faults _ e hlive => exact ⟨hlive, rfl⟩
  | ignored | opens | takes | closes => exact absurd rfl hne

/-- `valid` is a function of PHASE (10_state R29). -/
@[simp] theorem validFlag_iff {s : State} : validFlag s = true ↔ s.phase = .done := by
  simp [validFlag]

/-- `fault` is a function of PHASE (10_state R29). -/
@[simp] theorem faultFlag_iff {s : State} : faultFlag s = true ↔ s.phase = .fault := by
  simp [faultFlag]

/-- How the token of an instruction sets and clears the two flags (10_state R29), by the change of PHASE. -/
theorem exec_flags {i : Instr} {s t : State} (hexec : exec i s = .next t) :
    (validFlag s = false → validFlag t = true → ∃ p, i = .finish p) ∧
    (validFlag s = true → validFlag t = false → (∃ len seed, i = .start len seed) ∨ faultFlag t = true) ∧
    (faultFlag s = false → faultFlag t = true → ∃ e : ErrCode, faultOf i s = some e) ∧
    (faultFlag s = true → faultFlag t = true) := by
  obtain ⟨r, heffect, rfl⟩ := exec_effect hexec
  by_cases heq : r.phase = s.phase
  · simp +contextual [validFlag, faultFlag, heq]
  · rcases heffect.phase_change heq with
      ⟨hs, hr, hstart⟩ | ⟨hs, hr, hfinish⟩ | ⟨hs, hr, hfault⟩
    · rcases hs with hs | hs <;> simp [validFlag, faultFlag, hs, hr, hstart]
    · simp [validFlag, faultFlag, hs, hr, hfinish]
    · simp [validFlag, faultFlag, hs, hr, hfault]

/-- Settles O47: the flags are functions of PHASE. -/
theorem statusFlags : Obligations.StatusFlags :=
  ⟨fun _ => ⟨validFlag_iff, faultFlag_iff⟩, fun _ _ _ => exec_flags, fun _ => ⟨rfl, rfl, rfl, rfl⟩⟩

/-! ### Writers of the registers and of the configuration -/

/-- Settles O45, by the effects of a token: an ignored one writes nothing and a fault none of the four. -/
theorem registerWriters : Obligations.RegisterWriters := by
  intro i s t hexec
  obtain ⟨r, heffect, rfl⟩ := exec_effect hexec
  cases heffect with
  | ignored | faults => simp
  | opens | takes | closes => simp [Instr.isCommand]

/-- Settles O46: a step writes the registers and the pins alone. -/
theorem configurationNeverChanges : Obligations.ConfigurationNeverChanges := by
  intro s t hstep
  obtain ⟨r, ps, -, rfl⟩ := step_effect hstep
  exact ⟨rfl, rfl⟩

/-! ### Reset and the ports -/

/-- Settles O13: each part is the definition of the reset values and of the ports. -/
theorem resetValues : Obligations.ResetValues :=
  ⟨fun _ => ⟨rfl, rfl⟩, rfl, fun _ => ⟨rfl, rfl, rfl, rfl, rfl, rfl, rfl, rfl⟩⟩

/-- Bit 0 of an odd word is 1. -/
@[simp] theorem oddWord_getLsbD_zero {n : Nat} (x : BitVec n) : (oddWord x).getLsbD 0 = true := by
  simp [oddWord, BitVec.getLsbD_append]

/-- Settles O14: every constant the source states odd is an odd word at reset. -/
theorem resetConstantsMeetParity : Obligations.ResetConstantsMeetParity := by
  show Config.freeConstants.legal = true
  simp [Constants.legal, Config.freeConstants]

/-- `CFG[0]` is the width (10_state R28). -/
theorem cfgBits_bit0 (c : Config) : (cfgBits c).getLsbD 0 = true ↔ c.width = .w32 := by
  rw [cfgBits, BitVec.getLsbD_append]
  cases c.width <;> simp [cfgWidthBit]

/-- `CFG[1]` is the profile (10_state R28). -/
theorem cfgBits_bit1 (c : Config) : (cfgBits c).getLsbD 1 = true ↔ c.profile = .opt := by
  rw [cfgBits, BitVec.getLsbD_append]
  cases c.profile <;> simp [cfgProfileBit]

/-- The ports read the registers and the configuration alone (10_state R34). -/
theorem outputs_congr {s s' : State} (hregs : s.toRegisters = s'.toRegisters) (hcfg : s.cfg = s'.cfg) :
    outputs s = outputs s' := by
  simp only [outputs, validFlag, faultFlag, hregs, hcfg]

/-- Settles O60: a finishing FINISH writes DIGEST and PHASE, and (d) and (e) of 10_state R36 give the zeros. -/
theorem outputPorts : Obligations.OutputPorts := by
  refine ⟨fun s => ?_, fun s s' => outputs_congr, fun s p hphase hfull => ?_, fun s hinv hphase => ?_⟩
  · exact ⟨rfl, validFlag_iff, faultFlag_iff, rfl, rfl, cfgBits_bit0 s.cfg, cfgBits_bit1 s.cfg⟩
  · have hregs : tokenTransition (.finish p) s.cfg s.toRegisters =
        closeMessage (finalOf s.cfg s.h) (digestOf s.cfg.width (finalOf s.cfg s.h)) s.toRegisters :=
      finishTransition_closes hphase hfull
    refine ⟨_, exec_eq _ s, ?_, ?_⟩ <;> simp [outputs, hregs]
  · rcases hphase with hidle | habsorb
    · obtain ⟨-, -, -, hdigest⟩ := hinv.idle_zero hidle
      exact hdigest
    · exact hinv.absorb_zero habsorb

end Sys2Proof.Machine
end

section
/-!
SUPPORT. The feeder's side: the value of a word's bytes, and the words of a message as a list (20_memory R40
to R46).
-/

namespace Sys2Proof.Machine

/-! ### The value of some bytes -/

/-- Bytes behind others count above them. -/
theorem leValue_append (a b : List Byte) : leValue (a ++ b) = leValue a + 256 ^ a.length * leValue b := by
  induction a with
  | nil => simp [leValue]
  | cons x xs ih =>
    rw [List.cons_append, leValue, leValue, ih, List.length_cons]
    ring

/-- `n` bytes give a number of `n` base-256 digits. -/
theorem leValue_lt (bs : List Byte) : leValue bs < 256 ^ bs.length := by
  induction bs with
  | nil => simp [leValue]
  | cons b bs ih =>
    have hb : b.toNat < 256 := b.isLt
    rw [leValue, List.length_cons, pow_succ]
    omega

/-- The sum of 20_memory R43 in LE. -/
theorem leValue_eq_sum (bs : List Byte) :
    leValue bs = ∑ k : Fin bs.length, (bs[k]).toNat * 2 ^ (8 * (k : Nat)) := by
  induction bs with
  | nil => rfl
  | cons b bs ih =>
    have hshift (k : Nat) : 2 ^ (8 * (k + 1)) = 256 * 2 ^ (8 * k) := by ring
    refine Eq.trans ?_ (Fin.sum_univ_succ (n := bs.length) _).symm
    simp [leValue, ih, hshift, Finset.mul_sum, Nat.mul_left_comm]

/-- The sum of 20_memory R43 in BE. -/
theorem leValue_reverse_eq_sum (bs : List Byte) :
    leValue bs.reverse = ∑ k : Fin bs.length, (bs[k]).toNat * 2 ^ (8 * (bs.length - 1 - (k : Nat))) := by
  induction bs with
  | nil => rfl
  | cons b bs ih =>
    have hindex (k : Nat) : bs.length - 1 - k = bs.length - (k + 1) := by omega
    have htop : 2 ^ (8 * bs.length) = 256 ^ bs.length := by rw [pow_mul]; norm_num
    rw [List.reverse_cons, leValue_append, ih]
    refine Eq.trans ?_ (Fin.sum_univ_succ (n := bs.length) _).symm
    simp [leValue, hindex, htop, Nat.mul_comm, Nat.add_comm]

/-! ### The word of some bytes -/

/-- BE is LE of the bytes in the other order (20_memory R43). -/
theorem wordOf_be (bs : List Byte) : wordOf .be bs = wordOf .le bs.reverse := rfl

/-- The value of up to eight bytes fits the word. -/
theorem wordOf_le_toNat {bs : List Byte} (hlen : bs.length ≤ 8) : (wordOf .le bs).toNat = leValue bs := by
  have hpow : 256 ^ bs.length ≤ 256 ^ 8 := Nat.pow_le_pow_right (by decide) hlen
  exact (BitVec.toNat_ofNat ..).trans (Nat.mod_eq_of_lt (lt_of_lt_of_le (leValue_lt bs) hpow))

/-- Settles O54, by the two sums of the value of bytes, which fits a word of eight. -/
theorem wordIsSumOfBytes : Obligations.WordIsSumOfBytes := by
  intro bs hlen
  constructor
  · rw [wordOf_le_toNat hlen, leValue_eq_sum]
  · rw [wordOf_be, wordOf_le_toNat (by rwa [List.length_reverse]), leValue_reverse_eq_sum]

/-- The value of four bytes fits the low half of the word. -/
theorem lo32_wordOf_le_toNat {bs : List Byte} (hlen : bs.length = 4) :
    (lo32 (wordOf .le bs)).toNat = leValue bs := by
  have hlt : leValue bs < 2 ^ 32 := by simpa [hlen] using leValue_lt bs
  rw [lo32, BitVec.extractLsb'_toNat, wordOf_le_toNat (by omega), Nat.shiftRight_zero, Nat.mod_eq_of_lt hlt]

/-- Eight bytes in LE: the second four above the first (20_memory R43). -/
theorem wordOf_le_append {a b : List Byte} (ha : a.length = 4) (hb : b.length = 4) :
    wordOf .le (a ++ b) = lo32 (wordOf .le b) ++ lo32 (wordOf .le a) := by
  have hlow : leValue a < 2 ^ 32 := by simpa [ha] using leValue_lt a
  apply BitVec.eq_of_toNat_eq
  rw [BitVec.toNat_append, lo32_wordOf_le_toNat ha, lo32_wordOf_le_toNat hb,
    ← Nat.shiftLeft_add_eq_or_of_lt hlow, wordOf_le_toNat (by simp [ha, hb]), leValue_append, ha,
    Nat.shiftLeft_eq]
  omega

/-- Settles O55: BE is LE for the reversed bytes, whose second four are those of `a`. -/
theorem wordsOfBothWidthsAgree : Obligations.WordsOfBothWidthsAgree := by
  intro a b ha hb
  refine ⟨wordOf_le_append ha hb, ?_⟩
  rw [wordOf_be, wordOf_be, wordOf_be, List.reverse_append,
    wordOf_le_append (by rwa [List.length_reverse]) (by rwa [List.length_reverse])]

/-! ### The words of a message -/

/-- The word of the UNIT bytes at offset `UNIT * i` of a buffer (20_memory R42). -/
def wordAt (c : Config) (buf : List Byte) (i : Nat) : Word64 :=
  wordOf c.byteOrder ((buf.drop (unit c.width * i)).take (unit c.width))

/-- A read within the message has its bytes (20_memory R41). -/
theorem memRead_within {buf : List Byte} {len addr n : Nat} (hread : addr + n ≤ len)
    (hbuf : len ≤ buf.length) : memRead buf len addr n = some ((buf.drop addr).take n) :=
  if_pos ⟨hread, hbuf⟩

/-- The bytes of a word below NW end within the message (20_memory R42). -/
theorem unit_mul_add_unit_le {w : Width} {len : Word32} {i : Nat} (hi : i < (wordCount w len).toNat) :
    unit w * i + unit w ≤ len.toNat := by
  rw [wordCount_toNat] at hi
  calc unit w * i + unit w = unit w * (i + 1) := (Nat.mul_succ _ _).symm
    _ ≤ unit w * (len.toNat / unit w) := Nat.mul_le_mul_left _ hi
    _ ≤ len.toNat := Nat.mul_div_le _ _

/-- Each word below NW of a message whose bytes are all there is that of its bytes (20_memory R42). -/
theorem msgWord_eq_wordAt {c : Config} {buf : List Byte} {len : Word32} {i : Nat}
    (hbuf : len.toNat ≤ buf.length) (hi : i < (wordCount c.width len).toNat) :
    msgWord c buf len i = some (wordAt c buf i) := by
  rw [msgWord, if_pos hi, memRead_within (unit_mul_add_unit_le hi) hbuf]
  rfl

/-- Words that are all there are collected in index order (20_memory R46). -/
theorem msgWordsFrom_eq_map {c : Config} {buf : List Byte} {len : Word32} (hbuf : len.toNat ≤ buf.length)
    (k : Nat) : ∀ i : Nat, i + k ≤ (wordCount c.width len).toNat →
      msgWordsFrom c buf len k i = some ((List.range' i k).map (wordAt c buf)) := by
  induction k with
  | zero => exact fun _ _ => rfl
  | succ k ih =>
    intro i hi
    rw [msgWordsFrom, msgWord_eq_wordAt hbuf (by omega), ih (i + 1) (by omega)]
    rfl

/-- The words of a message whose bytes are all there (20_memory R42, R46). -/
theorem msgWords_eq_map {c : Config} {buf : List Byte} {len : Word32} (hbuf : len.toNat ≤ buf.length) :
    msgWords c buf len = some ((List.range (wordCount c.width len).toNat).map (wordAt c buf)) := by
  rw [msgWords, msgWordsFrom_eq_map hbuf _ 0 (by omega), List.range_eq_range']

/-- A message of a legal length whose words are there has their digest (00_scope R18). -/
theorem digestFn_eq_messageDigest {c : Config} {buf : List Byte} {len : Word32} {words : List Word64}
    (seed : Word32) (hlen : lenLegal c.width len = true) (hwords : msgWords c buf len = some words) :
    digestFn c buf len seed = some (messageDigest c len seed words) := by
  rw [digestFn, if_pos hlen, hwords]
  rfl

/-- Settles O56: the words are those of the indices below NW, which is the number of units. -/
theorem bufferHasItsWords : Obligations.BufferHasItsWords := by
  intro c buf len seed hlen hbuf
  have hwords := msgWords_eq_map (c := c) hbuf
  refine ⟨_, hwords, ?_, fun i hi => ?_, digestFn_eq_messageDigest seed hlen hwords⟩
  · rw [List.length_map, List.length_range, wordCount_toNat]
  · rw [List.getElem?_eq_getElem hi, List.getElem_map, List.getElem_range]
    rfl

end Sys2Proof.Machine
end

section
/-!
SUPPORT. The proofs of the statements of 30_encoding. A token is its opcode above its payload, and decoding
keeps both, so what holds of every token follows from the opcode of its instruction.
-/

namespace Sys2Proof.Machine

/-! ### A token and its instruction -/

/-- Settles O1: no operand of any instruction is lost in its token. -/
theorem decodeOfEncode : Obligations.DecodeOfEncode :=
  fun i _ => decode_encode i

/-- A token is its opcode above its payload (30_encoding R60). -/
theorem opField_append_payloadField (c : Token) : opField c ++ payloadField c = c :=
  BitVec.extractLsb'_append_extractLsb'

/-- In format S the payload is `len` above `seed` (30_encoding R62). -/
theorem lenField_append_seedField (c : Token) : (lenField c ++ seedField c : Word64) = payloadField c :=
  BitVec.extractLsb'_append_extractLsb'_eq_extractLsb' rfl

/-- Decoding keeps the opcode (30_encoding R64): each branch of `decode` gives the instruction of its opcode,
and the last is the only one left to `0xF`. -/
@[simp] theorem opcode_decode (c : Token) : (decode c).opcode = opField c := by
  unfold decode
  split <;> apply BitVec.eq_of_toNat_eq
  case h_16 =>
    have hop : (opField c).toNat < 16 := (opField c).isLt
    simp only [imp_false] at *
    show 15 = (opField c).toNat
    omega
  all_goals simp [Instr.opcode, *]

/-- Decoding keeps the payload (30_encoding R61). -/
@[simp] theorem payload_decode (c : Token) : (decode c).payload = payloadField c := by
  unfold decode
  split
  case h_2 => exact lenField_append_seedField c
  all_goals rfl

/-- Settles O2: decoding keeps the opcode and the payload, which are the whole token. -/
theorem encodeOfDecode : Obligations.EncodeOfDecode := by
  intro c
  rw [encode, opcode_decode, payload_decode, opField_append_payloadField]

/-! ### The opcode map -/

/-- The instruction of opcode `0x1` (30_encoding R64). -/
theorem opcode_eq_start {i : Instr} : i.opcode = 0x1#4 ↔ ∃ len seed, i = .start len seed := by
  cases i <;> simp [Instr.opcode]

/-- The instruction of opcode `0x2` (30_encoding R64). -/
theorem opcode_eq_absorb {i : Instr} : i.opcode = 0x2#4 ↔ ∃ p, i = .absorb p := by
  cases i <;> simp [Instr.opcode]

/-- The instruction of opcode `0x3` (30_encoding R64). -/
theorem opcode_eq_finish {i : Instr} : i.opcode = 0x3#4 ↔ ∃ p, i = .finish p := by
  cases i <;> simp [Instr.opcode]

/-- The reserved opcodes are `0x0` and those from `0x4` on (30_encoding R65). -/
theorem isCommand_eq_false_iff {i : Instr} : i.isCommand = false ↔ i.opcode = 0#4 ∨ 4#4 ≤ i.opcode := by
  cases i <;> simp [Instr.opcode, Instr.isCommand]

/-- A token is of a reserved opcode when its `op` is (30_encoding R65). -/
theorem isCommand_decode_eq_false_iff {c : Token} :
    (decode c).isCommand = false ↔ opField c = 0#4 ∨ 4#4 ≤ opField c := by
  rw [isCommand_eq_false_iff, opcode_decode]

/-- The mask of 30_encoding R64 leaves `op` and clears the payload. -/
theorem and_opcodeMask (c : Token) : c &&& 0xF0000000000000000#68 = opField c ++ 0#64 :=
  calc c &&& 0xF0000000000000000#68
    _ = (opField c ++ payloadField c) &&& (BitVec.allOnes 4 ++ 0#64) := by
      rw [opField_append_payloadField]; rfl
    _ = opField c ++ 0#64 := by rw [BitVec.and_append, BitVec.and_allOnes, BitVec.and_zero]

/-- A match of 30_encoding R64 holds exactly of the tokens of its opcode. -/
theorem and_opcodeMask_eq_iff (c : Token) (op : BitVec 4) :
    c &&& 0xF0000000000000000#68 = op ++ 0#64 ↔ (decode c).opcode = op := by
  rw [and_opcodeMask, BitVec.append_left_inj, opcode_decode]

/-- Settles O3: each match is a test of the opcode, which the instruction keeps. -/
theorem opcodeMapByMask : Obligations.OpcodeMapByMask := fun c =>
  ⟨(and_opcodeMask_eq_iff c 0x1#4).trans opcode_eq_start,
    (and_opcodeMask_eq_iff c 0x2#4).trans opcode_eq_absorb,
    (and_opcodeMask_eq_iff c 0x3#4).trans opcode_eq_finish,
    isCommand_decode_eq_false_iff.symm⟩

/-- Format S (30_encoding R62). -/
theorem decode_of_opField_start {c : Token} (hop : opField c = 0x1#4) :
    decode c = .start (lenField c) (seedField c) := by
  simp [decode, hop]

/-- Format A (30_encoding R62). -/
theorem decode_of_opField_absorb {c : Token} (hop : opField c = 0x2#4) :
    decode c = .absorb (payloadField c) := by
  simp [decode, hop]

/-- Format F (30_encoding R62). -/
theorem decode_of_opField_finish {c : Token} (hop : opField c = 0x3#4) :
    decode c = .finish (payloadField c) := by
  simp [decode, hop]

/-- Settles O4: the fields of the formats are those the decoder reads. -/
theorem fieldsOfFormats : Obligations.FieldsOfFormats := fun _ =>
  ⟨decode_of_opField_start, decode_of_opField_absorb, decode_of_opField_finish⟩

/-! ### Listed tokens -/

/-- A listing's digit is read with its own value (30_encoding R69, assumption 10). -/
theorem hexDigitValue_hexDigit {d : Nat} (hd : d < 16) : hexDigitValue (hexDigit d) = some d := by
  revert d
  decide

/-- Digits behind others go on from the value of those. -/
theorem digitsValue_append {base acc v : Nat} {ds : List Char} (es : List Char)
    (h : digitsValue base acc ds = some v) : digitsValue base acc (ds ++ es) = digitsValue base v es := by
  fun_induction digitsValue base acc ds with
  | case1 acc =>
    cases h
    rfl
  | case2 acc ch rest d hd hlt ih => simp [digitsValue, hd, hlt, ih h]
  | case3 | case4 => contradiction

/-- A listing has as many digits as it is asked for. -/
@[simp] theorem hexDigits_length (n v : Nat) : (hexDigits n v).length = n := by
  induction n generalizing v with
  | zero => rfl
  | succ n ih => rw [hexDigits, List.length_append, ih, List.length_singleton]

/-- The `n` lowest digits of a number are read as what the number is below `16 ^ n`. -/
theorem digitsValue_hexDigits (n v : Nat) : digitsValue 16 0 (hexDigits n v) = some (v % 16 ^ n) := by
  induction n generalizing v with
  | zero => simp [hexDigits, digitsValue, Nat.mod_one]
  | succ n ih =>
    have hd : v % 16 < 16 := Nat.mod_lt v (by decide)
    have hvalue : v / 16 % 16 ^ n * 16 + v % 16 = v % 16 ^ (n + 1) := by
      rw [Nat.pow_succ', Nat.mod_mul, Nat.add_comm, Nat.mul_comm]
    rw [hexDigits, digitsValue_append _ (ih (v / 16))]
    simp [digitsValue, hexDigitValue_hexDigit hd, hd, hvalue]

/-- Settles O6: 17 digits hold all 68 bits. -/
theorem listedTokenReadsBack : Obligations.ListedTokenReadsBack := by
  intro c
  have hlength : (tokenListing c).length = 17 := hexDigits_length 17 c.toNat
  refine ⟨hlength, ?_⟩
  have hfits : c.toNat < 16 ^ 17 := c.isLt
  rw [parseToken, if_pos hlength, tokenListing, digitsValue_hexDigits, Nat.mod_eq_of_lt hfits]

/-! ### Ignored bits and reserved opcodes -/

/-- The low half of a payload is its lower word (00_scope R14). -/
@[simp] theorem lo32_append (hi w : Word32) : lo32 (hi ++ w) = w :=
  BitVec.extractLsb'_append_eq_right

/-- In W32 a round reads the low half of the payload alone (41_absorb R90). -/
theorem roundOf_congr_lo32 {c : Config} {p p' : Word64} (nw idx : Nat) (h : Word64) (hw : c.width = .w32)
    (hlow : lo32 p = lo32 p') : roundOf c nw idx h p = roundOf c nw idx h p' := by
  cases hp : c.profile <;> simp [roundOf, hw, hp, absorbWord32, hlow]

/-- So does ABSORB (30_encoding R66). -/
theorem absorbTransition_congr_lo32 {c : Config} {p p' : Word64} (hw : c.width = .w32)
    (hlow : lo32 p = lo32 p') : absorbTransition p c = absorbTransition p' c := by
  funext r
  have hlive : absorbLive p c = absorbLive p' c := by
    funext r
    simp only [absorbLive, roundOf_congr_lo32 _ _ _ hw hlow]
  rw [absorbTransition, absorbTransition, hlive]

/-- A reserved opcode has the transition of an illegal token (30_encoding R65). -/
theorem tokenTransition_reserved {i : Instr} (hi : i.isCommand = false) : tokenTransition i = illegal := by
  cases i with
  | start | absorb | finish => simp [Instr.isCommand] at hi
  | _ => rfl

/-- Settles O27: the transition of W32's ABSORB reads the low half alone, that of FINISH no payload, and a
reserved opcode's is that of every illegal token. -/
theorem ignoredBitsChangeNothing : Obligations.IgnoredBitsChangeNothing := by
  refine ⟨fun s hi hi' w hw => ?_, fun _ _ _ => rfl, fun s c c' hop hc => ?_⟩
  · have hsame := absorbTransition_congr_lo32 hw ((lo32_append hi w).trans (lo32_append hi' w).symm)
    rw [exec_eq, exec_eq, State.onRegisters, State.onRegisters, tokenTransition, tokenTransition, hsame]
  · have hfield : opField c = opField c' := hop
    have hc' : (decode c').isCommand = false := by
      rwa [isCommand_decode_eq_false_iff, ← hfield, ← isCommand_decode_eq_false_iff]
    rw [exec_eq, exec_eq, tokenTransition_reserved hc, tokenTransition_reserved hc']

/-- A reserved opcode outside FAULT takes ILLCMD and writes nothing but PHASE and ERR (30_encoding R65,
60_exceptions R136). -/
theorem exec_reserved {i : Instr} {s : State} (hi : i.isCommand = false) (hlive : s.phase ≠ .fault) :
    exec i s = .next { s with phase := .fault, err := .illCmd } := by
  rw [exec_eq, tokenTransition_reserved hi, State.onRegisters, illegal, unlessFaulted_of_live hlive]
  rfl

/-- Settles O37: every one of these instructions has a reserved opcode. -/
theorem reservedOpcodesFault : Obligations.ReservedOpcodesFault := by
  intro s p hlive t
  have hreserved {i : Instr} (hi : i.isCommand = false) : exec i s = .next t := exec_reserved hi hlive
  exact ⟨hreserved rfl, hreserved rfl, hreserved rfl, hreserved rfl, hreserved rfl, hreserved rfl,
    hreserved rfl, hreserved rfl, hreserved rfl, hreserved rfl, hreserved rfl, hreserved rfl,
    hreserved rfl, fun c hop => hreserved (isCommand_decode_eq_false_iff.mpr hop)⟩

/-- Settles O42: every instruction is a transition, and a step is one or none. -/
theorem nothingEverStops : Obligations.NothingEverStops := by
  refine ⟨fun c s => ⟨_, exec_eq (decode c) s⟩, fun s => ?_⟩
  cases hp : s.pins with
  | nil => exact ⟨_, step_of_nil hp⟩
  | cons p rest => exact ⟨_, step_of_cons hp⟩

/-! ### HASH -/

/-- A length below `2 ^ 32` is a `u32`. -/
theorem fits32_of_lt {v : Nat} (hv : v < 2 ^ 32) : fits32 v = some (BitVec.ofNat 32 v) :=
  if_pos hv

/-- Settles O57: the listed bytes are the buffer, whose words are all there. -/
theorem hashExpansion : Obligations.HashExpansion := by
  intro c seed bytes hbytes
  have hlen : (BitVec.ofNat 32 bytes.length).toNat = bytes.length :=
    (BitVec.toNat_ofNat ..).trans (Nat.mod_eq_of_lt hbytes)
  have hlegal : lenLegal c.width (BitVec.ofNat 32 bytes.length) = true ↔ bytes.length % unit c.width = 0 := by
    rw [lenLegal_iff, hlen]
  have hwords := msgWords_eq_map (c := c) (buf := bytes) hlen.le
  refine ⟨fun hmod => ⟨_, hwords, ?_, ?_⟩, fun hmod => ?_⟩
  · rw [List.length_map, List.length_range, wordCount_toNat, hlen]
  · simp only [hashTokens, fits32_of_lt hbytes, hlegal.mpr hmod, hwords]
    rfl
  · simp [hashTokens, fits32_of_lt hbytes, hlegal, hmod]

end Sys2Proof.Machine
end

section
/-!
SUPPORT. The proofs of the statements of 40_start. START has three effects outside FAULT (R80): an opening
one, and the two faults the table of 60_exceptions R132 names, which are taken as every fault is (R136).
-/

namespace Sys2Proof.Machine

/-! ### A fault of the table is taken -/

/-- A token with a fault in the table has no other effect (60_exceptions R132, R136). -/
theorem TokenEffect.eq_raise {s : State} {i : Instr} {r : Registers} {e : ErrCode}
    (heffect : TokenEffect s i r) (hfault : faultOf i s = some e) : r = raise e s.toRegisters := by
  cases heffect with
  | ignored _ hphase => simp [faultOf, hphase] at hfault
  | faults _ _ _ hfault' =>
    obtain rfl := Option.some.inj (hfault'.symm.trans hfault)
    rfl
  | opens len seed hphase hlen =>
    rcases hphase with h | h <;> simp [faultOf, h, lenLegal_iff.mp hlen] at hfault
  | takes w hphase hroom => simp [faultOf, hphase, hroom] at hfault
  | closes p hphase hfull => simp [faultOf, hphase, hfull] at hfault

/-- A token with a fault in the table takes it and writes nothing but PHASE and ERR (60_exceptions R136). -/
theorem exec_of_faultOf {i : Instr} {s : State} {e : ErrCode} (hfault : faultOf i s = some e) :
    exec i s = .next { s with phase := .fault, err := e } := by
  rw [exec_eq, State.onRegisters, (tokenTransition_effect i s).eq_raise hfault]
  rfl

/-! ### START of a legal length -/

/-- START of a legal length outside a message, as a change of the state (40_start R81). -/
theorem exec_start_opens {s : State} {len : Word32} (seed : Word32)
    (hphase : s.phase = .idle ∨ s.phase = .done) (hlen : lenLegal s.cfg.width len = true) :
    exec (.start len seed) s = .next { s with
      toRegisters := openMessage (zext64 (seed ^^^ len)) (wordCount s.cfg.width len) s.toRegisters } := by
  rw [exec_eq, State.onRegisters, tokenTransition, startTransition_opens seed hphase hlen]

/-- The unit is 8 bytes in W64 and 4 in W32 (00_scope R5). -/
theorem unit_eq_ite (w : Width) : unit w = if w = .w64 then 8 else 4 := by
  cases w <;> rfl

/-- NW of a message as the quotient of its length by the unit (40_start R81). -/
theorem wordCount_eq_ofNat (w : Width) (len : Word32) :
    wordCount w len = BitVec.ofNat 30 (len.toNat / unit w) := by
  rw [← wordCount_toNat, BitVec.ofNat_toNat, BitVec.setWidth_eq]

/-- Settles O15: the length is legal, and NW is its quotient by the unit. -/
theorem startOpensMessage : Obligations.StartOpensMessage := by
  intro s len seed hphase hlen
  rw [← unit_eq_ite] at hlen ⊢
  rw [exec_start_opens seed hphase (lenLegal_iff.mpr hlen), wordCount_eq_ofNat]
  rfl

/-- Settles O18: every register but ERR is written, and none from what it held. -/
theorem startForgetsHistory : Obligations.StartForgetsHistory := by
  intro s s' len seed hphase hphase' hcfg hlen
  have hlen' : lenLegal s'.cfg.width len = true := hcfg ▸ hlen
  exact ⟨_, _, exec_start_opens seed hphase hlen, exec_start_opens seed hphase' hlen',
    rfl, congrArg (fun c : Config => wordCount c.width len) hcfg, rfl, rfl, rfl⟩

/-! ### START that takes a fault -/

/-- A length is legal when its bits below the unit are zero (40_start R82). -/
theorem lenLegal_iff_lowBits {w : Width} {len : Word32} :
    lenLegal w len = true ↔ len.extractLsb' 0 (log2Unit w) = 0 := by
  have hunit : unit w = 2 ^ log2Unit w := by cases w <;> rfl
  simp [lenLegal_iff, hunit, ← BitVec.toNat_inj]

/-- Settles O16: a low bit that is set makes the length illegal. -/
theorem startBadLengthFaults : Obligations.StartBadLengthFaults := by
  intro s len seed hphase hbits
  have hlive : s.phase ≠ .fault := by rcases hphase with h | h <;> simp [h]
  have hclosed : s.phase ≠ .absorb := by rcases hphase with h | h <;> simp [h]
  have hlen : lenLegal s.cfg.width len = false := by
    rw [← Bool.not_eq_true, lenLegal_iff_lowBits]
    rcases hbits with ⟨hw, hbits⟩ | ⟨hw, hbits⟩ <;> rwa [hw]
  exact exec_of_faultOf (faultOf_start_badLength seed hlive hclosed hlen)

/-- Settles O17: the phase is checked before the length. -/
theorem startDuringMessageFaults : Obligations.StartDuringMessageFaults :=
  fun _ len seed hphase => exec_of_faultOf (faultOf_start_absorb len seed hphase)

/-- Settles O20, by the effects of a START: it is ignored, takes a fault, or opens a message. -/
theorem startFrame : Obligations.StartFrame := by
  intro s t len seed hexec
  obtain ⟨r, heffect, rfl⟩ := exec_effect hexec
  refine ⟨rfl, rfl, ?_⟩
  cases heffect with
  | ignored => exact ⟨fun _ => rfl, fun _ => ⟨rfl, rfl, rfl, rfl⟩⟩
  | faults => exact ⟨fun hlive => absurd rfl hlive, fun _ => ⟨rfl, rfl, rfl, rfl⟩⟩
  | opens => exact ⟨fun _ => rfl, nofun⟩

/-! ### Tokens the spec writes out -/

/-- Settles O5: each word is the token of its instruction. -/
theorem writtenTokensDecode : Obligations.WrittenTokensDecode :=
  ⟨decode_encode (.start 0x18 0x12345678), decode_encode (.start 0x14 0),
    decode_encode (.absorb 0xffffffff00000000), decode_encode (.finish 0), decode_encode (.reserved0 0),
    decode_encode (.reservedF 0x7b)⟩

end Sys2Proof.Machine
end

section
/-!
SUPPORT. The proofs of the statements of 41_absorb. An ABSORB that a message has room for is its variant's round
(R92), and every step of a round is invertible but a multiplication by an even constant (R100).
-/

namespace Sys2Proof.Machine

/-! ### The three outcomes of ABSORB -/

/-- ABSORB of a word the message has room for, as a change of the state (41_absorb R91, R92). -/
theorem exec_absorb_takes {s : State} (w : Word64) (hphase : s.phase = .absorb) (hroom : s.idx < s.nw) :
    exec (.absorb w) s =
      .next { s with h := roundOf s.cfg s.nw.toNat s.idx.toNat s.h w, idx := s.idx + 1 } := by
  rw [exec_eq, State.onRegisters, tokenTransition, absorbTransition_takes w hphase hroom]
  rfl

/-- In FAULT an instruction changes nothing (60_exceptions R138). -/
theorem exec_of_fault {s : State} (i : Instr) (hphase : s.phase = .fault) : exec i s = .next s := by
  have hsame : tokenTransition i s.cfg s.toRegisters = s.toRegisters := by
    cases i <;> exact unlessFaulted_of_fault hphase
  rw [exec_eq, State.onRegisters, hsame]

/-- Settles O25: the two faults are those of the table. -/
theorem absorbLegality : Obligations.AbsorbLegality := by
  intro s w
  refine ⟨fun hphase => ?_, fun hphase hfull => ?_, exec_absorb_takes w, exec_of_fault _⟩
  · have hlive : s.phase ≠ .fault := by rcases hphase with h | h <;> simp [h]
    have hclosed : s.phase ≠ .absorb := by rcases hphase with h | h <;> simp [h]
    exact exec_of_faultOf (faultOf_absorb_closed w hlive hclosed)
  · have hnone : ¬ s.idx < s.nw := by simp [hfull, BitVec.lt_irrefl]
    exact exec_of_faultOf (faultOf_absorb_full w hphase hnone)

/-- Settles O26, by the effects of an ABSORB: it is ignored, takes a fault, or takes its word. -/
theorem absorbFrame : Obligations.AbsorbFrame := by
  intro s t w hexec
  obtain ⟨r, heffect, rfl⟩ := exec_effect hexec
  cases heffect with
  | ignored => exact ⟨rfl, rfl, rfl, rfl, fun _ => ⟨rfl, rfl⟩, fun _ => ⟨rfl, rfl⟩⟩
  | faults => exact ⟨rfl, rfl, rfl, rfl, fun hlive => absurd rfl hlive, fun _ => ⟨rfl, rfl⟩⟩
  | takes _ hphase =>
    have hlive : s.phase ≠ .fault := by simp [hphase]
    exact ⟨rfl, rfl, rfl, rfl, fun _ => ⟨rfl, rfl⟩, fun hfault => absurd hfault hlive⟩

/-! ### The round of each variant -/

/-- A rotation of the spec is the rotation of bit vectors (00_scope R13). -/
theorem rotl_eq_rotateLeft {n : Nat} (a : BitVec n) (r : Nat) : rotl a r = a.rotateLeft r := by
  by_cases hzero : r % n = 0
  · simp [rotl, BitVec.rotateLeft_def, hzero, BitVec.ushiftRight_eq_zero]
  · rw [rotl, if_neg hzero, BitVec.rotateLeft_def]

/-- In W64/FULL `roundOf` is the round of the word's position (41_absorb R96). -/
theorem roundOf_w64_full {c : Config} (nw idx : Nat) (h w : Word64) (hw : c.width = .w64)
    (hp : c.profile = .full) : roundOf c nw idx h w = roundW64Full c nw idx h w := by
  simp [roundOf, hw, hp, absorbWord64]

/-- In W64/OPT `roundOf` does not read NW (41_absorb R97). -/
theorem roundOf_w64_opt {c : Config} (nw idx : Nat) (h w : Word64) (hw : c.width = .w64)
    (hp : c.profile = .opt) : roundOf c nw idx h w = roundW64Opt c idx h w := by
  simp [roundOf, hw, hp, absorbWord64]

/-- In W32/FULL `roundOf` reads neither NW nor IDX, and the low halves alone (41_absorb R98). -/
theorem roundOf_w32_full {c : Config} (nw idx : Nat) (h w : Word64) (hw : c.width = .w32)
    (hp : c.profile = .full) : roundOf c nw idx h w = zext64 (roundW32Full c (lo32 h) (lo32 w)) := by
  simp [roundOf, hw, hp, absorbWord32]

/-- So does `roundOf` in W32/OPT (41_absorb R99). -/
theorem roundOf_w32_opt {c : Config} (nw idx : Nat) (h w : Word64) (hw : c.width = .w32)
    (hp : c.profile = .opt) : roundOf c nw idx h w = zext64 (roundW32Opt c (lo32 h) (lo32 w)) := by
  simp [roundOf, hw, hp, absorbWord32]

/-- Settles O21, by where the word stands: the position is that of a block word or of a tail word. -/
theorem absorbRoundW64Full : Obligations.AbsorbRoundW64Full := by
  intro s w hphase hroom hw hp
  rw [exec_absorb_takes w hphase (BitVec.lt_def.mpr hroom), roundOf_w64_full _ _ _ _ hw hp]
  refine ⟨fun j hblock hj => ?_, fun n htail hn => ?_⟩
  · have hposition : position s.nw.toNat s.idx.toNat = .block j := by
      rw [position_block hblock]
      exact congrArg Position.block (Fin.ext hj)
    simp only [roundW64Full, hposition, positionConsts, round64, rotl_eq_rotateLeft, zext64]
  · obtain ⟨n', hposition, hn'⟩ := position_tail (Nat.not_lt.mpr htail) hroom
    obtain rfl : n' = n := Fin.ext (by omega)
    simp only [roundW64Full, hposition, positionConsts, round64, rotl_eq_rotateLeft, zext64]

/-- The entry of the cycle of three constants at a residue (41_absorb R97). -/
theorem k3At_of_mod {c : Config} {i : Nat} {a : Fin 3} (ha : i % 3 = a) : k3At c i = c.consts.k3[a] := by
  simp [k3At, ha]

/-- Settles O22: the two constants are entries of the cycle. -/
theorem absorbRoundW64Opt : Obligations.AbsorbRoundW64Opt := by
  intro s w a b hphase hroom hw hp ha hb
  rw [exec_absorb_takes w hphase (BitVec.lt_def.mpr hroom), roundOf_w64_opt _ _ _ _ hw hp]
  simp only [roundW64Opt, k3At_of_mod ha, k3At_of_mod hb, round64, rotl_eq_rotateLeft]

/-- Settles O23: the round reads the low half of the payload. -/
theorem absorbRoundW32Full : Obligations.AbsorbRoundW32Full := by
  intro s hi w hphase hroom hw hp
  rw [exec_absorb_takes _ hphase (BitVec.lt_def.mpr hroom), roundOf_w32_full _ _ _ _ hw hp, lo32_append]
  simp only [roundW32Full, round32, rotl_eq_rotateLeft, lo32, zext64]

/-- Settles O24: the round reads the low half of the payload. -/
theorem absorbRoundW32Opt : Obligations.AbsorbRoundW32Opt := by
  intro s hi w hphase hroom hw hp
  rw [exec_absorb_takes _ hphase (BitVec.lt_def.mpr hroom), roundOf_w32_opt _ _ _ _ hw hp, lo32_append]
  simp only [roundW32Opt, round32, rotl_eq_rotateLeft, lo32, zext64]

/-! ### The steps of a round as maps of words (41_absorb R100) -/

/-- Bit `i` of a word stands in its rotation by `r` at `i + r`, indices modulo the width (00_scope R13). -/
theorem getLsbD_rotl_add {n i : Nat} (a : BitVec n) (r : Nat) (hi : i < n) :
    (rotl a r).getLsbD ((i + r) % n) = a.getLsbD i := by
  have hback : ((i + r) % n + (n - r % n)) % n = i := by
    have hr : r % n < n := Nat.mod_lt r (by omega)
    have hsum : i + r + (n - r % n) = i + n * (r / n + 1) := by
      have := Nat.div_add_mod r n
      rw [Nat.mul_add_one]
      omega
    rw [Nat.mod_add_mod, hsum, Nat.add_mul_mod_self_left, Nat.mod_eq_of_lt hi]
  rw [rotationMovesBits n a r _ (Nat.mod_lt _ (by omega)), hback]

/-- A rotation loses no bit. -/
theorem rotl_bijective {n : Nat} (r : Nat) : Function.Bijective fun a : BitVec n => rotl a r := by
  rw [← Finite.injective_iff_bijective]
  intro a b hab
  refine BitVec.eq_of_getLsbD_eq fun i hi => ?_
  rw [← getLsbD_rotl_add a r hi, ← getLsbD_rotl_add b r hi]
  exact congrArg (·.getLsbD ((i + r) % n)) hab

/-- Bit 0 of a word says whether its value is odd. -/
theorem getLsbD_zero_iff_odd {n : Nat} {m : BitVec n} : m.getLsbD 0 = true ↔ Odd m.toNat := by
  rw [← BitVec.testBit_toNat, Nat.testBit_zero, decide_eq_true_iff, Nat.odd_iff]

/-- The units modulo `2 ^ n` are the odd words. -/
theorem isUnit_iff_getLsbD_zero {n : Nat} {m : BitVec n} (hn : n ≠ 0) :
    IsUnit m ↔ m.getLsbD 0 = true := by
  have hone : 1 < 2 ^ n := Nat.one_lt_two_pow hn
  rw [getLsbD_zero_iff_odd]
  constructor
  · intro hunit
    obtain ⟨a, ha⟩ := hunit.exists_right_inv
    have hproduct : m.toNat * a.toNat % 2 ^ n = 1 := by
      rw [← BitVec.toNat_mul, ha]
      exact Nat.mod_eq_of_lt hone
    have hodd : Odd (m.toNat * a.toNat) := by
      rw [Nat.odd_iff, ← Nat.mod_mod_of_dvd _ (dvd_pow_self 2 hn), hproduct]
    exact (Nat.odd_mul.mp hodd).1
  · intro hodd
    obtain ⟨a, -, ha⟩ := Nat.exists_mul_mod_eq_one_of_coprime (hodd.coprime_two_right.pow_right n) hone
    refine IsUnit.of_mul_eq_one (BitVec.ofNat n a) (BitVec.eq_of_toNat_eq ?_)
    rw [BitVec.toNat_mul, BitVec.toNat_ofNat, Nat.mul_mod_mod, ha]
    exact (Nat.mod_eq_of_lt hone).symm

/-- Multiplication by a fixed word is invertible exactly when the word is odd. -/
theorem mul_bijective_iff {n : Nat} {m : BitVec n} (hn : n ≠ 0) :
    Function.Bijective (· * m) ↔ m.getLsbD 0 = true := by
  rw [← IsUnit.isUnit_iff_mulRight_bijective, isUnit_iff_getLsbD_zero hn]

/-! ### The rounds as maps of the accumulator and of the word (41_absorb R100) -/

/-- In a 64-bit round the accumulator goes through an XOR and a rotation, then the multiplication. -/
theorem round64_bijective_accumulator {r1 r2 : Nat} {a b m w : Word64} :
    (Function.Bijective fun h => round64 r1 r2 a b m h w) ↔ m.getLsbD 0 = true := by
  rw [← mul_bijective_iff (by decide)]
  exact Function.Bijective.of_comp_iff (· * m) ((rotl_bijective r2).comp (xor_left_involutive _).bijective)

/-- So does the word, behind XORs and a rotation of its own. -/
theorem round64_bijective_word {r1 r2 : Nat} {a b m h : Word64} :
    (Function.Bijective fun w => round64 r1 r2 a b m h w) ↔ m.getLsbD 0 = true := by
  rw [← mul_bijective_iff (by decide)]
  have hword : Function.Bijective fun w => rotl (w ^^^ a) r1 ^^^ b :=
    (xor_left_involutive b).bijective.comp ((rotl_bijective r1).comp (xor_left_involutive a).bijective)
  exact Function.Bijective.of_comp_iff (· * m)
    ((rotl_bijective r2).comp ((xor_right_involutive h).bijective.comp hword))

/-- The scramble that ends a 32-bit round: 5 is odd. -/
theorem scramble_bijective (r : Nat) (n : Word32) :
    Function.Bijective fun h : Word32 => rotl h r * 5 + n :=
  (AddGroup.addRight_bijective n).comp
    (((mul_bijective_iff (by decide)).mpr (by decide)).comp (rotl_bijective r))

/-- In a 32-bit round the accumulator goes through an XOR and the scramble. -/
theorem round32_bijective_accumulator (r1 r2 : Nat) (c1 c2 n w : Word32) :
    Function.Bijective fun h => round32 r1 r2 c1 c2 n h w :=
  (scramble_bijective r2 n).comp (xor_left_involutive _).bijective

/-- The word goes through two multiplications too: the first is invertible when the whole is, since it is
injective on finitely many words, and the second is what then remains. -/
theorem round32_bijective_word {r1 r2 : Nat} {c1 c2 n h : Word32} :
    (Function.Bijective fun w => round32 r1 r2 c1 c2 n h w) ↔
      c1.getLsbD 0 = true ∧ c2.getLsbD 0 = true := by
  have hfold : Function.Bijective fun k : Word32 => rotl (h ^^^ k) r2 * 5 + n :=
    (scramble_bijective r2 n).comp (xor_right_involutive h).bijective
  have hfirst : (Function.Bijective fun w => round32 r1 r2 c1 c2 n h w) → Function.Bijective (· * c1) :=
    fun hround => Finite.injective_iff_bijective.mp
      (Function.Injective.of_comp (f := fun k => rotl (h ^^^ rotl k r1 * c2) r2 * 5 + n) hround.injective)
  have hsecond (hc1 : Function.Bijective (· * c1)) :
      (Function.Bijective fun w => round32 r1 r2 c1 c2 n h w) ↔ Function.Bijective (· * c2) :=
    (Function.Bijective.of_comp_iff' hfold fun w => rotl (w * c1) r1 * c2).trans
      (Function.Bijective.of_comp_iff (· * c2) ((rotl_bijective r1).comp hc1))
  rw [← mul_bijective_iff (by decide), ← mul_bijective_iff (by decide)]
  exact ⟨fun hround => ⟨hfirst hround, (hsecond (hfirst hround)).mp hround⟩,
    fun ⟨hc1, hc2⟩ => (hsecond hc1).mpr hc2⟩

/-! ### The rounds of legal configurations -/

/-- The low half of a zero-extended word is the word (00_scope R14). -/
@[simp] theorem lo32_zext64 (v : Word32) : lo32 (zext64 v) = v := by
  rw [lo32, zext64, BitVec.extractLsb'_setWidth_of_le (by decide), BitVec.extractLsb'_eq_self]

/-- Zero extension keeps the parity. -/
theorem zext64_getLsbD_zero (v : Word32) : (zext64 v).getLsbD 0 = v.getLsbD 0 := by
  simp [zext64]

/-- The multipliers of the round of W64/FULL are odd at every position (10_state R30). -/
theorem positionConsts_multiplier_odd {c : Config} (hc : c.legal = true) (p : Position) :
    (positionConsts c p).2.2.getLsbD 0 = true := by
  simp only [Config.legal, Constants.legal, Bool.and_eq_true, List.all_eq_true, Vector.mem_toList_iff] at hc
  obtain ⟨⟨⟨⟨⟨⟨⟨hblock, htail⟩, -⟩, -⟩, -⟩, -⟩, -⟩, -⟩ := hc
  cases p with
  | block j => exact hblock _ (Vector.getElem_mem j.isLt)
  | tail n => exact htail _ (Vector.getElem_mem n.isLt)

/-- Settles O28, by the variant: its round is the 64-bit or the 32-bit one at its multiplier. -/
theorem roundPermutesAccumulator : Obligations.RoundPermutesAccumulator := by
  intro c nw idx w hlegal
  refine ⟨fun hw hp => ?_, fun hw hp => ?_, fun hw => ?_⟩
  · simp only [roundOf_w64_full _ _ _ _ hw hp]
    exact round64_bijective_accumulator.mpr
      ((zext64_getLsbD_zero _).trans (positionConsts_multiplier_odd hlegal _))
  · simp only [roundOf_w64_opt _ _ _ _ hw hp]
    exact round64_bijective_accumulator
  · cases hp : c.profile with
    | full =>
      simp only [roundOf_w32_full _ _ _ _ hw hp, lo32_zext64]
      exact round32_bijective_accumulator ..
    | opt =>
      simp only [roundOf_w32_opt _ _ _ _ hw hp, lo32_zext64]
      exact round32_bijective_accumulator ..

/-- Settles O29, by the variant: its round is the 64-bit or the 32-bit one at its multipliers. -/
theorem roundPermutesWord : Obligations.RoundPermutesWord := by
  intro c nw idx h hlegal
  refine ⟨fun hw hp => ?_, fun hw hp hodd => ?_, fun hw hp => ?_, fun hw hp => ?_⟩
  · simp only [roundOf_w64_full _ _ _ _ hw hp]
    exact round64_bijective_word.mpr
      ((zext64_getLsbD_zero _).trans (positionConsts_multiplier_odd hlegal _))
  · simp only [roundOf_w64_opt _ _ _ _ hw hp]
    exact round64_bijective_word.mpr hodd
  · simp only [roundOf_w32_full _ _ _ _ hw hp, lo32_zext64]
    exact round32_bijective_word
  · simp only [roundOf_w32_opt _ _ _ _ hw hp, lo32_zext64]
    exact round32_bijective_word

end Sys2Proof.Machine
end

section
/-!
SUPPORT. The proofs of the statements of 42_finish. A FINISH with every word taken is its variant's finalizer and
fold (R118), and every step of a finalizer is invertible but a multiplication by an even constant (R120).
-/

namespace Sys2Proof.Machine

/-! ### The three outcomes of FINISH -/

/-- FINISH with every word taken, as a change of the state (42_finish R110, R118). -/
theorem exec_finish_closes {s : State} (p : Word64) (hphase : s.phase = .absorb) (hfull : s.idx = s.nw) :
    exec (.finish p) s = .next { s with
      h := finalOf s.cfg s.h
      digest := digestOf s.cfg.width (finalOf s.cfg s.h)
      phase := .done } := by
  rw [exec_eq, State.onRegisters, tokenTransition, finishTransition_closes hphase hfull]
  rfl

/-- Settles O33: the two faults are those of the table, and the opcode alone makes a token a FINISH. -/
theorem finishLegality : Obligations.FinishLegality := by
  intro s p
  refine ⟨fun hphase => ?_, fun hphase hroom => ?_, exec_finish_closes p, exec_of_fault _, fun c hop => ?_⟩
  · have hlive : s.phase ≠ .fault := by rcases hphase with h | h <;> simp [h]
    have hclosed : s.phase ≠ .absorb := by rcases hphase with h | h <;> simp [h]
    exact exec_of_faultOf (faultOf_finish_closed p hlive hclosed)
  · exact exec_of_faultOf (faultOf_finish_missing p hphase hroom)
  · rw [decode_of_opField_finish hop]
    rfl

/-- Settles O34, by the effects of a FINISH: it is ignored, takes a fault, or closes the message. -/
theorem finishFrame : Obligations.FinishFrame := by
  intro s t p hexec
  obtain ⟨r, heffect, rfl⟩ := exec_effect hexec
  cases heffect with
  | ignored => exact ⟨rfl, rfl, rfl, rfl, fun _ => rfl, fun _ => ⟨rfl, rfl⟩⟩
  | faults => exact ⟨rfl, rfl, rfl, rfl, fun hlive => absurd rfl hlive, fun _ => ⟨rfl, rfl⟩⟩
  | closes => exact ⟨rfl, rfl, rfl, rfl, fun _ => rfl, nofun⟩

/-! ### The finalizer of each variant -/

/-- FINISH of W64/FULL has the finalizer `Fin64F` (42_finish R112). -/
theorem finalOf_w64_full {c : Config} (h : Word64) (hw : c.width = .w64) (hp : c.profile = .full) :
    finalOf c h = fin64F c h := by
  simp [finalOf, hw, hp]

/-- FINISH of W64/OPT has `Fin64O` (42_finish R113). -/
theorem finalOf_w64_opt {c : Config} (h : Word64) (hw : c.width = .w64) (hp : c.profile = .opt) :
    finalOf c h = fin64O c h := by
  simp [finalOf, hw, hp]

/-- FINISH of W32 has `Fin32` of the low half, in both profiles (42_finish R114). -/
theorem finalOf_w32 {c : Config} (h : Word64) (hw : c.width = .w32) :
    finalOf c h = zext64 (fin32 c (lo32 h)) := by
  simp [finalOf, hw]

/-- Settles O30: the finalizer is `Fin64F`. -/
theorem finishW64Full : Obligations.FinishW64Full := by
  intro s p hphase hfull hw hp
  rw [exec_finish_closes p hphase hfull, finalOf_w64_full _ hw hp, hw]
  rfl

/-- Settles O31: the finalizer is `Fin64O`. -/
theorem finishW64Opt : Obligations.FinishW64Opt := by
  intro s p hphase hfull hw hp
  rw [exec_finish_closes p hphase hfull, finalOf_w64_opt _ hw hp, hw]
  rfl

/-- Settles O32: the finalizer is `Fin32` of the low half, which is all the digest reads. -/
theorem finishW32 : Obligations.FinishW32 := by
  intro s p hphase hfull hw
  rw [exec_finish_closes p hphase hfull, finalOf_w32 _ hw, hw, digestOf, lo32_zext64]
  rfl

/-! ### The shift-XOR step -/

/-- A bit of a shift-XOR step, where a bit from the width on is 0 (42_finish R115). -/
theorem getLsbD_xs {n : Nat} (h : BitVec n) (s i : Nat) :
    (xs h s).getLsbD i = (h.getLsbD i ^^ h.getLsbD (i + s)) := by
  rw [xs, BitVec.getLsbD_xor, BitVec.getLsbD_ushiftRight, Nat.add_comm]

/-- Settles O53: for a bit of the top `s`, bit `i + s` lies beyond the word. -/
theorem shiftXorBits : Obligations.ShiftXorBits := by
  intro n h s i _ hs _
  refine ⟨fun htop => ?_, fun _ => getLsbD_xs h s i⟩
  rw [getLsbD_xs, BitVec.getLsbD_of_ge h (i + s) (by omega), Bool.xor_false]

/-- A shift-XOR step maps zero to zero (42_finish R119). -/
@[simp] theorem xs_zero {n : Nat} (s : Nat) : xs 0#n s = 0#n := by
  simp [xs]

/-- A shift-XOR step distributes over XOR. -/
theorem xs_xor {n : Nat} (a b : BitVec n) (s : Nat) : xs (a ^^^ b) s = xs a s ^^^ xs b s := by
  simp only [xs, BitVec.ushiftRight_xor_distrib]
  ac_rfl

/-- A shift-XOR step maps no other word to zero, since a shift makes every other word smaller. -/
theorem eq_zero_of_xs_eq_zero {n s : Nat} {d : BitVec n} (hs : 0 < s) (hd : xs d s = 0#n) : d = 0#n := by
  by_contra hne
  have hsmaller : d.toNat / 2 ^ s < d.toNat :=
    Nat.div_lt_self (BitVec.toNat_pos_of_ne_zero hne) (Nat.one_lt_two_pow (by omega))
  have hshift : d = d >>> s := BitVec.xor_eq_zero_iff.mp hd
  rw [← Nat.shiftRight_eq_div_pow, ← BitVec.toNat_ushiftRight, ← hshift] at hsmaller
  exact Nat.lt_irrefl _ hsmaller

/-- A shift-XOR step is invertible: it maps the XOR of two words with one result to zero (42_finish R120). -/
theorem xs_bijective {n s : Nat} (hs : 0 < s) : Function.Bijective fun h : BitVec n => xs h s := by
  rw [← Finite.injective_iff_bijective]
  intro a b hab
  refine BitVec.xor_eq_zero_iff.mp (eq_zero_of_xs_eq_zero hs ?_)
  rw [xs_xor]
  exact BitVec.xor_eq_zero_iff.mpr hab

/-! ### The finalizers as maps of their width (42_finish R119, R120) -/

/-- A composition of maps of a finite type is bijective when both are. -/
theorem comp_bijective_iff {α : Type} [Finite α] {f g : α → α} :
    Function.Bijective (f ∘ g) ↔ Function.Bijective f ∧ Function.Bijective g := by
  refine ⟨fun hfg => ?_, fun ⟨hf, hg⟩ => hf.comp hg⟩
  have hg : Function.Bijective g := Finite.injective_iff_bijective.mp hfg.injective.of_comp
  exact ⟨(Function.Bijective.of_comp_iff f hg).mp hfg, hg⟩

/-- A shift-XOR step, then a multiplication. -/
theorem xs_mul_bijective_iff {n s : Nat} {m : BitVec n} (hn : n ≠ 0) (hs : 0 < s) :
    (Function.Bijective fun h => xs h s * m) ↔ m.getLsbD 0 = true := by
  rw [← mul_bijective_iff hn]
  exact Function.Bijective.of_comp_iff (· * m) (xs_bijective hs)

/-- The four steps every finalizer begins with. -/
theorem xs_mul_xs_mul_bijective_iff {n s1 s2 : Nat} {m1 m2 : BitVec n} (hn : n ≠ 0) (hs1 : 0 < s1)
    (hs2 : 0 < s2) :
    (Function.Bijective fun h => xs (xs h s1 * m1) s2 * m2) ↔
      m1.getLsbD 0 = true ∧ m2.getLsbD 0 = true := by
  rw [← xs_mul_bijective_iff hn hs1, ← xs_mul_bijective_iff hn hs2, and_comm]
  exact comp_bijective_iff (f := fun h => xs h s2 * m2) (g := fun h => xs h s1 * m1)

/-- The multipliers of `Fin64F` and `Fin32` are odd (10_state R30, R32). -/
theorem finalizer_multipliers_odd {c : Config} (hc : c.legal = true) :
    (c.consts.f1.getLsbD 0 = true ∧ c.consts.f2.getLsbD 0 = true) ∧
    (c.consts.p1.getLsbD 0 = true ∧ c.consts.p2.getLsbD 0 = true) := by
  simp only [Config.legal, Constants.legal, Bool.and_eq_true] at hc
  obtain ⟨⟨⟨⟨⟨⟨-, hf1⟩, hf2⟩, -⟩, -⟩, hp1⟩, hp2⟩ := hc
  exact ⟨⟨hf1, hf2⟩, hp1, hp2⟩

/-- `Fin64F` is the four steps and a shift-XOR (42_finish R112). -/
theorem fin64F_bijective {c : Config} (hc : c.legal = true) : Function.Bijective (fin64F c) :=
  (xs_bijective (by decide)).comp ((xs_mul_xs_mul_bijective_iff (by decide) (by decide) (by decide)).mpr
    (finalizer_multipliers_odd hc).1)

/-- So is `Fin32` (42_finish R114). -/
theorem fin32_bijective {c : Config} (hc : c.legal = true) : Function.Bijective (fin32 c) :=
  (xs_bijective (by decide)).comp ((xs_mul_xs_mul_bijective_iff (by decide) (by decide) (by decide)).mpr
    (finalizer_multipliers_odd hc).2)

/-- `Fin64O` is the four steps alone (42_finish R113). -/
theorem fin64O_bijective_iff {c : Config} :
    Function.Bijective (fin64O c) ↔ c.consts.g1.getLsbD 0 = true ∧ c.consts.g2.getLsbD 0 = true :=
  xs_mul_xs_mul_bijective_iff (by decide) (by decide) (by decide)

/-- Settles O36: every step but a multiplication is invertible for every constant set. -/
theorem finalizerIsBijective : Obligations.FinalizerIsBijective :=
  fun _ hlegal => ⟨fin64F_bijective hlegal, fin32_bijective hlegal, fin64O_bijective_iff⟩

/-- Every finalizer maps zero to zero (42_finish R119). -/
theorem finalOf_zero (c : Config) : finalOf c 0 = 0 := by
  have hlow : lo32 0#64 = 0#32 := rfl
  have hext : zext64 0#32 = 0#64 := rfl
  cases hw : c.width with
  | w32 => simp [finalOf_w32 _ hw, fin32, hlow, hext]
  | w64 =>
    cases hp : c.profile with
    | full => simp [finalOf_w64_full _ hw hp, fin64F]
    | opt => simp [finalOf_w64_opt _ hw hp, fin64O]

/-- The digest of zero is zero (42_finish R116, R119). -/
theorem digestOf_zero (w : Width) : digestOf w 0 = 0 := by
  cases w <;> rfl

/-- Settles O35: the empty message with seed 0 leaves its START's zero in the accumulator. -/
theorem zeroAccumulatorGivesZeroDigest : Obligations.ZeroAccumulatorGivesZeroDigest := by
  refine ⟨fun s p hphase hfull hzero => ?_, fun c => ?_⟩
  · rw [exec_finish_closes p hphase hfull, hzero, finalOf_zero, digestOf_zero]
  · have hstart : zext64 (0 ^^^ 0) = 0 := rfl
    rw [messageDigest, absorbAll, hstart, finalOf_zero, digestOf_zero]

/-! ### The seed in W32 -/

/-- In W32 a round answers the zero extension of its low half (10_state R21). -/
theorem zext64_lo32_roundOf {c : Config} (nw idx : Nat) (h w : Word64) (hw : c.width = .w32) :
    zext64 (lo32 (roundOf c nw idx h w)) = roundOf c nw idx h w := by
  cases hp : c.profile with
  | full => rw [roundOf_w32_full _ _ _ _ hw hp, lo32_zext64]
  | opt => rw [roundOf_w32_opt _ _ _ _ hw hp, lo32_zext64]

/-- In W32 the accumulator behind some words is a bijection of the one before them, by induction on the words
(41_absorb R100). -/
theorem absorbAll_bijective_accumulator {c : Config} (hc : c.legal = true) (hw : c.width = .w32) (nw : Nat)
    (words : List Word64) :
    ∀ i : Nat, Function.Bijective fun h : Word32 => lo32 (absorbAll c nw i (zext64 h) words) := by
  induction words with
  | nil =>
    intro i
    simp only [absorbAll, lo32_zext64]
    exact Function.bijective_id
  | cons w ws ih =>
    intro i
    obtain ⟨-, -, hround⟩ := roundPermutesAccumulator c nw i w hc
    have hcomp := (ih (i + 1)).comp (hround hw)
    simpa only [Function.comp_def, zext64_lo32_roundOf _ _ _ _ hw, absorbAll] using hcomp

/-- In W32 the digest is the finalised low half of the accumulator (42_finish R116, R118). -/
theorem digestOf_finalOf_w32 {c : Config} (h : Word64) (hw : c.width = .w32) :
    digestOf c.width (finalOf c h) = fin32 c (lo32 h) := by
  rw [finalOf_w32 h hw, hw, digestOf, lo32_zext64]

/-- Settles O59: the XOR with the length, the rounds and the finalizer are all invertible. -/
theorem seedDeterminesDigestInW32 : Obligations.SeedDeterminesDigestInW32 := by
  intro c len words hlegal hw
  simp only [messageDigest, digestOf_finalOf_w32 _ hw]
  exact (fin32_bijective hlegal).comp
    ((absorbAll_bijective_accumulator hlegal hw _ words 0).comp (xor_left_involutive len).bijective)

end Sys2Proof.Machine
end

section
/-!
SUPPORT. The proofs of the statements of 60_exceptions. Each is read off the effects a token can have: a fault is
taken exactly where the table names one (R132), its entry is the same whatever the cause (R136), and in FAULT
every token is ignored (R138).
-/

namespace Sys2Proof.Machine

/-! ### The table of faults is exact -/

/-- Settles O38: a token with a fault in the table has no other effect. -/
theorem faultTableIsTaken : Obligations.FaultTableIsTaken :=
  fun _ _ _ => exec_of_faultOf

/-- Settles O39, by the effects of a token: outside FAULT and without a fault it opens a message, takes a word
or closes the message, and none of these writes ERR. -/
theorem legalTokensNeverFault : Obligations.LegalTokensNeverFault := by
  intro i s hlive hnone
  have hexec := exec_eq i s
  obtain ⟨r, heffect, ht⟩ := exec_effect hexec
  refine ⟨_, hexec, ?_⟩
  rw [ht]
  cases heffect with
  | ignored _ hphase => exact absurd hphase hlive
  | faults _ _ _ hfault => simp [hnone] at hfault
  | opens => exact ⟨rfl, rfl⟩
  | takes _ hphase => exact ⟨rfl, hphase⟩
  | closes => exact ⟨rfl, rfl⟩

/-! ### Fault entry -/

/-- An instruction that enters FAULT takes the fault the table names and writes only PHASE and ERR
(60_exceptions R136). -/
theorem exec_enters_fault {i : Instr} {s t : State} (hexec : exec i s = .next t) (hlive : s.phase ≠ .fault)
    (hfaulted : t.phase = .fault) :
    ∃ e : ErrCode, faultOf i s = some e ∧ t = { s with phase := .fault, err := e } := by
  obtain ⟨r, heffect, rfl⟩ := exec_effect hexec
  cases heffect with
  | faults _ e _ hfault => exact ⟨e, hfault, rfl⟩
  | ignored => exact absurd hfaulted hlive
  | takes _ hphase => exact absurd hfaulted (by simp [hphase])
  | opens | closes => exact nomatch hfaulted

/-- Settles O40: the ports show PHASE, ERR and DIGEST, and DIGEST is the old one. -/
theorem faultEntryIsPrecise : Obligations.FaultEntryIsPrecise := by
  intro i s t hexec hlive hfaulted
  obtain ⟨e, hfault, rfl⟩ := exec_enters_fault hexec hlive hfaulted
  exact ⟨e, hfault, faultOf_ne_none hfault, rfl, rfl, rfl, rfl, rfl⟩

/-! ### FAULT is left by reset alone -/

/-- In FAULT a presented token goes by and changes nothing (60_exceptions R138). -/
theorem step_of_presented_of_fault {s : State} {k : Token} {rest : List Pins}
    (hp : s.pins = presented k :: rest) (hphase : s.phase = .fault) :
    step s = .next { s with pins := rest } :=
  (step_of_token hp rfl).trans (exec_of_fault (s := { s with pins := rest }) _ hphase)

/-- Settles O41, by induction on the tokens: each leaves the registers, and so the phase, to the next. -/
theorem faultIgnoresAllTokens : Obligations.FaultIgnoresAllTokens := by
  intro s cs hphase
  induction cs with
  | nil => rfl
  | cons c cs ih =>
    have hstep := step_of_presented_of_fault (s := { s with pins := (c :: cs).map presented }) rfl hphase
    exact (run_of_step cs.length hstep).trans ih

end Sys2Proof.Machine
end

section
/-!
SUPPORT. The proofs of the statements of 70_reset_and_hazards. What the transitions of one opcode do to PHASE,
IDX, NW and ERR is compared operation by operation (R160); the samples of a host that holds its tokens are
walked through by induction on the samples (R156).
-/

namespace Sys2Proof.Machine

/-! ### Reset -/

/-- Settles O8: the step at a reset is the reset event. -/
theorem resetOverridesToken : Obligations.ResetOverridesToken :=
  fun _ _ _ hp hrst => step_of_reset hp hrst

/-! ### Control does not depend on data -/

/-- Registers that agree on everything but the data, H and DIGEST (70_reset_and_hazards R160). -/
structure SameControl (r r' : Registers) : Prop where
  nw : r.nw = r'.nw
  idx : r.idx = r'.idx
  phase : r.phase = r'.phase
  err : r.err = r'.err

namespace SameControl

variable {r r' : Registers}

/-- A fault writes PHASE and ERR, whatever they were (60_exceptions R136). -/
theorem after_raise (e : ErrCode) (hsame : SameControl r r') : SameControl (raise e r) (raise e r') :=
  ⟨hsame.nw, hsame.idx, rfl, rfl⟩

/-- The accumulator an opened message starts from is data (40_start R81). -/
theorem after_openMessage (h h' : Word64) (nw : Count) (hsame : SameControl r r') :
    SameControl (openMessage h nw r) (openMessage h' nw r') :=
  ⟨rfl, rfl, rfl, hsame.err⟩

/-- The accumulator behind a word is data (41_absorb R92). -/
theorem after_takeWord (h h' : Word64) (hsame : SameControl r r') : SameControl (takeWord h r) (takeWord h' r') :=
  ⟨hsame.nw, congrArg (· + 1) hsame.idx, hsame.phase, hsame.err⟩

/-- The final accumulator and the digest are data (42_finish R118). -/
theorem after_closeMessage (h h' : Word64) (d d' : Word32) (hsame : SameControl r r') :
    SameControl (closeMessage h d r) (closeMessage h' d' r') :=
  ⟨hsame.nw, hsame.idx, rfl, hsame.err⟩

/-- Whether a token is ignored depends on PHASE alone (60_exceptions R138). -/
theorem after_unlessFaulted {f f' : Registers → Registers} (hsame : SameControl r r')
    (hlive : SameControl (f r) (f' r')) : SameControl (unlessFaulted f r) (unlessFaulted f' r') := by
  by_cases hfault : r.phase = .fault
  · rwa [unlessFaulted_of_fault hfault, unlessFaulted_of_fault (hsame.phase ▸ hfault)]
  · rwa [unlessFaulted_of_live hfault, unlessFaulted_of_live (hsame.phase ▸ hfault)]

/-- START checks PHASE and the length, not the seed (40_start R80). -/
theorem after_startLive (len seed seed' : Word32) (c : Config) (hsame : SameControl r r') :
    SameControl (startLive len seed c r) (startLive len seed' c r') := by
  unfold startLive
  rw [hsame.phase]
  split
  · exact hsame.after_raise _
  · split
    · exact hsame.after_openMessage _ _ _
    · exact hsame.after_raise _

/-- ABSORB checks PHASE and IDX against NW, not the word (41_absorb R91). -/
theorem after_absorbLive (w w' : Word64) (c : Config) (hsame : SameControl r r') :
    SameControl (absorbLive w c r) (absorbLive w' c r') := by
  unfold absorbLive
  rw [hsame.phase, hsame.idx, hsame.nw]
  split
  · split
    · exact hsame.after_takeWord _ _
    · exact hsame.after_raise _
  · exact hsame.after_raise _

/-- FINISH checks PHASE and IDX against NW, not the accumulator (42_finish R110). -/
theorem after_finishLive (c : Config) (hsame : SameControl r r') :
    SameControl (finishLive c r) (finishLive c r') := by
  unfold finishLive
  rw [hsame.phase, hsame.idx, hsame.nw]
  split
  · split
    · exact hsame.after_raise _
    · exact hsame.after_closeMessage _ _ _ _
  · exact hsame.after_raise _

/-- The transitions of two tokens of one opcode, and of one length if they are STARTs, keep the agreement. -/
theorem after_tokenTransition {i i' : Instr} (c : Config) (hsame : SameControl r r') (hop : i.opcode = i'.opcode)
    (hlen : ∀ len len' seed seed', i = .start len seed → i' = .start len' seed' → len = len') :
    SameControl (tokenTransition i c r) (tokenTransition i' c r') := by
  cases i with
  | start len seed =>
    obtain ⟨len', seed', rfl⟩ := opcode_eq_start.mp hop.symm
    obtain rfl := hlen len len' seed seed' rfl rfl
    exact hsame.after_unlessFaulted (hsame.after_startLive len seed seed' c)
  | absorb w =>
    obtain ⟨w', rfl⟩ := opcode_eq_absorb.mp hop.symm
    exact hsame.after_unlessFaulted (hsame.after_absorbLive w w' c)
  | finish p =>
    obtain ⟨p', rfl⟩ := opcode_eq_finish.mp hop.symm
    exact hsame.after_unlessFaulted (hsame.after_finishLive c)
  | _ =>
    have hreserved : i'.isCommand = false := by
      rw [isCommand_eq_false_iff, ← hop, ← isCommand_eq_false_iff]
      rfl
    rw [tokenTransition_reserved hreserved]
    exact hsame.after_unlessFaulted (hsame.after_raise .illCmd)

end SameControl

/-- Settles O48: the transitions of both tokens keep the agreement of the registers. -/
theorem controlIndependentOfData : Obligations.ControlIndependentOfData := by
  intro i i' s s' t t' hop hlen hnw hidx hphase herr hcfg hexec hexec'
  rw [exec_eq, Host.Outcome.next.injEq] at hexec hexec'
  subst hexec hexec'
  have hsame : SameControl s.toRegisters s'.toRegisters := ⟨hnw, hidx, hphase, herr⟩
  obtain ⟨hnw', hidx', hphase', herr'⟩ := hsame.after_tokenTransition s'.cfg hop hlen
  rw [State.onRegisters, State.onRegisters, hcfg]
  exact ⟨hphase', hidx', hnw', herr'⟩

/-! ### A host that holds its tokens -/

/-- The duty to hold tokens goes on behind the first sample (70_reset_and_hazards R156). -/
theorem holdsTokens_tail {p : Pins} {ps : List Pins} (hholds : holdsTokens (p :: ps) = true) :
    holdsTokens ps = true := by
  cases ps with
  | nil => rfl
  | cons q ps => exact (Bool.and_eq_true_iff.mp hholds).2

/-- A token that is presented, not accepted and not reset is presented at the next sample again (R156). -/
theorem holdsTokens_next {p q : Pins} {ps : List Pins} (hholds : holdsTokens (p :: q :: ps) = true)
    (hvalid : p.cmdValid = true) (hready : p.cmdReady = false) (hrst : p.rst = false) :
    q.cmdValid = true ∧ q.cmd = p.cmd := by
  simpa [hvalid, hready, hrst] using (Bool.and_eq_true_iff.mp hholds).1

/-- The events of two sequences of samples in turn. -/
theorem eventsOf_append (ps qs : List Pins) : eventsOf (ps ++ qs) = eventsOf ps ++ eventsOf qs :=
  List.filterMap_append

/-- The event at sample `j` stands behind those of the samples before `j`. -/
theorem eventsOf_getElem?_of_event {ps : List Pins} {j : Nat} {q : Pins} {e : HostEvent}
    (hq : ps[j]? = some q) (he : eventOf q = some e) :
    (eventsOf ps)[(eventsOf (ps.take j)).length]? = some e := by
  obtain ⟨hj, rfl⟩ := List.getElem?_eq_some_iff.mp hq
  have hsplit : ps = ps.take j ++ ps[j] :: ps.drop (j + 1) := by simp
  have hevents : eventsOf ps = eventsOf (ps.take j) ++ e :: eventsOf (ps.drop (j + 1)) := by
    conv_lhs => rw [hsplit, eventsOf_append, eventsOf_cons, he]
    rfl
  simp [hevents]

/-- The token `c` is accepted at sample `j`, and held from sample `i` on until then. -/
structure HeldUntil (ps : List Pins) (c : Token) (i j : Nat) : Prop where
  le : i ≤ j
  accepted : ∃ q : Pins, ps[j]? = some q ∧ eventOf q = some (.token c)
  held : ∀ k : Nat, i ≤ k → k < j →
    ∃ r : Pins, ps[k]? = some r ∧ r.cmdValid = true ∧ r.cmd = c ∧ eventOf r = none

/-- A token that is accepted at once. -/
theorem heldUntil_zero {p : Pins} {c : Token} (ps : List Pins) (hevent : eventOf p = some (.token c)) :
    HeldUntil (p :: ps) c 0 0 :=
  ⟨Nat.le_refl 0, ⟨p, rfl, hevent⟩, fun _ _ hk => absurd hk (Nat.not_lt_zero _)⟩

/-- A sample in front moves both ends by one. -/
theorem HeldUntil.cons {ps : List Pins} {c : Token} {i j : Nat} (p : Pins) (hheld : HeldUntil ps c i j) :
    HeldUntil (p :: ps) c (i + 1) (j + 1) where
  le := Nat.succ_le_succ hheld.le
  accepted := hheld.accepted
  held
    | 0, hik, _ => absurd hik (Nat.not_succ_le_zero i)
    | k + 1, hik, hkj => hheld.held k (Nat.le_of_succ_le_succ hik) (Nat.lt_of_succ_lt_succ hkj)

/-- A sample in front that presents the token already is one at which it waits. -/
theorem HeldUntil.wait {p : Pins} {ps : List Pins} {j : Nat} (hvalid : p.cmdValid = true)
    (hevent : eventOf p = none) (hheld : HeldUntil ps p.cmd 0 j) : HeldUntil (p :: ps) p.cmd 0 (j + 1) where
  le := Nat.zero_le _
  accepted := hheld.accepted
  held
    | 0, _, _ => ⟨p, rfl, hvalid, rfl, hevent⟩
    | k + 1, _, hkj => hheld.held k (Nat.zero_le k) (Nat.lt_of_succ_lt_succ hkj)

/-- A token presented to a core that is ready is accepted, when no reset is asserted (10_state R35). -/
theorem eventOf_of_ready {p : Pins} (hvalid : p.cmdValid = true) (hready : p.cmdReady = true)
    (hrst : p.rst = false) : eventOf p = some (.token p.cmd) :=
  eventOf_of_accepted (by simp [accepted, hvalid, hready, hrst])

/-- Every presentation ends in an acceptance, by induction on the samples before the last: a first sample
without one has the token at the next sample again (70_reset_and_hazards R156). -/
theorem exists_heldUntil {last : Pins} (hclosed : last.cmdValid = true → last.cmdReady = true) (ps : List Pins) :
    holdsTokens (ps ++ [last]) = true → (∀ p ∈ ps ++ [last], p.rst = false) →
    ∀ (i : Nat) (p : Pins), (ps ++ [last])[i]? = some p → p.cmdValid = true →
      ∃ j, HeldUntil (ps ++ [last]) p.cmd i j := by
  induction ps with
  | nil =>
    intro _ hrst i p hp hvalid
    obtain ⟨rfl, rfl⟩ : i = 0 ∧ last = p := by simpa [List.getElem?_singleton] using hp
    exact ⟨0, heldUntil_zero [] (eventOf_of_ready hvalid (hclosed hvalid) (hrst last (by simp)))⟩
  | cons a ps ih =>
    intro hholds hrst i p hp hvalid
    have htail := ih (holdsTokens_tail hholds) fun q hq => hrst q (List.mem_cons_of_mem a hq)
    cases i with
    | succ i =>
      obtain ⟨j, hheld⟩ := htail i p hp hvalid
      exact ⟨j + 1, hheld.cons a⟩
    | zero =>
      obtain rfl : a = p := Option.some.inj hp
      have harst : a.rst = false := hrst a List.mem_cons_self
      cases hready : a.cmdReady with
      | true => exact ⟨0, heldUntil_zero _ (eventOf_of_ready hvalid hready harst)⟩
      | false =>
        obtain ⟨q, qs, hqs⟩ : ∃ q qs, ps ++ [last] = q :: qs := List.exists_cons_of_ne_nil (by simp)
        rw [List.cons_append, hqs] at hholds
        obtain ⟨hqvalid, hqcmd⟩ := holdsTokens_next hholds hvalid hready harst
        obtain ⟨j, hheld⟩ := htail 0 q (by rw [hqs]; rfl) hqvalid
        rw [hqcmd] at hheld
        exact ⟨j + 1, hheld.wait hvalid (eventOf_of_idle harst (by simp [accepted, hready]))⟩

/-- Settles O12: the accepting sample is one event, in the place its predecessors leave. -/
theorem heldTokensAreAccepted : Obligations.HeldTokensAreAccepted := by
  intro ps last hholds hrst hclosed i p hp hvalid
  obtain ⟨j, hle, ⟨q, hq, hevent⟩, hheld⟩ := exists_heldUntil hclosed ps hholds hrst i p hp hvalid
  exact ⟨j, q, hle, hq, hevent, eventsOf_getElem?_of_event hq hevent, hheld⟩

end Sys2Proof.Machine
end
